-- ==== Sys2Proof/Word.lean ====
section
/-! DEFINITION. The word types of the arctech_screen codec: the command word, the bit array, and the
formats under which a word stands at the input port (spec/30_encoding.md R80, R93, R103). -/

namespace Sys2Proof

/-- `CW`, the 80-bit command word of R93; bit 0 is its least significant bit. -/
abbrev CommandWord := BitVec 80

/-- `BITS[0..31]` of R27, one bit an entry: `BITS[j]` is bit `j` (R96). -/
abbrev BitArray := BitVec 32

/-- The five formats of the "format" column of spec/opcode_table.json (R103). Only `cw` is a word a host
can present; the other four name the block's internal operations (assumption log entry 2). -/
inductive Format where
  | cw
  | step
  | pass
  | bits32
  | sym
  deriving DecidableEq, Repr

/-- One word at the input port: its format and its bits, bit 0 least significant. -/
structure PortWord where
  format : Format
  bits : BitVec 80
  deriving DecidableEq, Repr

end Sys2Proof
end

