-- ==== Sys2Proof/Syntax.lean ====
section
/-! DEFINITION. The operations of the codec: one constructor for each row of spec/opcode_table.json, with the
operands its format carries, and the names under which the decoder rejects a word. -/

namespace Sys2Proof

/-- The raw optional fields of `CREATE` (spec/10_state.md R28): a presence bit each, and a value where the
field has one. The values of `id` and `unit` are 32-bit two's complement. -/
structure RawFields where
  idP : Bool
  idV : BitVec 32
  unitP : Bool
  unitV : BitVec 32
  allP : Bool
  allV : Bool
  upP : Bool
  downP : Bool
  learnP : Bool
  deriving DecidableEq, Repr

/-- Why the decoder rejects a word. A rejected word leaves the specified domain: the block gives it no
meaning (spec/60_exceptions.md R224). All of these are safe: the run stops. -/
inductive Reject where
  /-- A bit of `CW[15:11]` is 1 (spec/30_encoding.md R97). -/
  | reservedBits
  /-- `op = 11` (R98). -/
  | reservedOp
  /-- `up_p` and `down_p` are both 1 in a `CREATE`, or in the fields given to `VALIDATE` (R99). -/
  | upAndDown
  /-- A STEP code that names no row of the table (the model's own layout, log entry 2). -/
  | reservedStep
  /-- A class code that is none of the four frame elements (R100, R101). -/
  | notASymbol
  /-- A symbol at a group start that no pass uses (spec/20_memory.md R56). -/
  | groupOutOfFrame
  /-- A bit that an internal word does not use is 1 (the model's own layout, log entry 2). -/
  | reservedInternal
  deriving DecidableEq, Repr

/-- The operations, in the order of spec/opcode_table.json. -/
inductive Instr where
  /-- `NOP` (R190). -/
  | nop
  /-- `CREATE` (R191): `BASE_SEL` and the raw fields. -/
  | create (baseSel : BitVec 2) (raw : RawFields)
  /-- `PARSE` (R194): the 32 demodulated bits. -/
  | parse (bits : BitArray)
  /-- `VALIDATE` (R120). -/
  | validate (raw : RawFields)
  /-- `P_START` (R141). -/
  | pStart
  /-- `P_CLEAR` (R142). -/
  | pClear
  /-- `P_ID` (R143); its operand is the register `CM.id`. -/
  | pId
  /-- `P_ALL` (R144); its operand is the register `CM.all`. -/
  | pAll
  /-- `P_STATE` (R145); its operand is the register `CM.state`. -/
  | pState
  /-- `P_UNIT` (R146); its operands are the registers `CM.unit` and `CM.all`. -/
  | pUnit
  /-- `P_FOOTER` (R147). -/
  | pFooter
  /-- `P_SCALE` (R148); its operands are `K` and `BASE_SEL`. -/
  | pScale (baseSel : BitVec 2)
  /-- `REPEAT` (R149); its operand is the register `CM.learn`. -/
  | repeatCount
  /-- `X_ID` (R172). -/
  | xId (bits : BitArray)
  /-- `X_ALL` (R173). -/
  | xAll (bits : BitArray)
  /-- `X_STATE` (R174). -/
  | xState (bits : BitArray)
  /-- `X_UNIT` (R175). -/
  | xUnit (bits : BitArray)
  /-- `MKMSG` (R197); its operand is the register `CM`. -/
  | mkmsg
  /-- `SYM_LOW` (R81): the symbol in the four slots from `2 + 4 * group`. -/
  | symLow (group : BitVec 6)
  /-- `SYM_HIGH` (R82): the symbol in the four slots from `2 + 4 * group`. -/
  | symHigh (group : BitVec 6)
  /-- `SYM_START` (R84): the start marker in slots 0 and 1. -/
  | symStart
  /-- `SYM_TAIL_FOOTER` (R85): the tail slot 130 and the footer slot 131. -/
  | symTailFooter
  deriving DecidableEq, Repr

end Sys2Proof
end

