-- ==== Sys2Proof/WellFormed.lean ====
section
/-! DEFINITION. What an operation must meet to have an encoding: `up` and `down` are not both present
(spec/30_encoding.md R99), and a symbol stands at a group start that a pass uses (spec/20_memory.md R56). -/

namespace Sys2Proof

/-- R99: `up_p` and `down_p` are not both 1. -/
def RawFields.wellFormed (raw : RawFields) : Bool := !(raw.upP && raw.downP)

/-- The checks on an operation. The clear pass uses the 33 group starts 2, 6, …, 130 and the overlays the
first 32 of them (R56); the other operations admit every value of their operands. -/
def Instr.wellFormed : Instr → Bool
  | .nop => true
  | .create _ raw => raw.wellFormed
  | .parse _ => true
  | .validate raw => raw.wellFormed
  | .pStart => true
  | .pClear => true
  | .pId => true
  | .pAll => true
  | .pState => true
  | .pUnit => true
  | .pFooter => true
  | .pScale _ => true
  | .repeatCount => true
  | .xId _ => true
  | .xAll _ => true
  | .xState _ => true
  | .xUnit _ => true
  | .mkmsg => true
  | .symLow group => decide (group.toNat ≤ 32)
  | .symHigh group => decide (group.toNat ≤ 31)
  | .symStart => true
  | .symTailFooter => true

/-- The format of the operation's row: the one R103 names, and for `VALIDATE`, `REPEAT` and `MKMSG`, for which R103
names none, the format column of spec/opcode_table.json. The two disagree on `P_SCALE`: R103 has it among the PASS
rows and the column says STEP; the model follows the rule (log entry 23). -/
def Instr.format : Instr → Format
  | .nop => .cw
  | .create _ _ => .cw
  | .parse _ => .cw
  | .validate _ => .step
  | .pStart => .pass
  | .pClear => .pass
  | .pId => .pass
  | .pAll => .pass
  | .pState => .pass
  | .pUnit => .pass
  | .pFooter => .pass
  | .pScale _ => .pass
  | .repeatCount => .step
  | .xId _ => .bits32
  | .xAll _ => .bits32
  | .xState _ => .bits32
  | .xUnit _ => .bits32
  | .mkmsg => .step
  | .symLow _ => .sym
  | .symHigh _ => .sym
  | .symStart => .sym
  | .symTailFooter => .sym

end Sys2Proof
end

