-- ==== Sys2Proof/Decode.lean ====
section
/-! DEFINITION. The decoder, total over every word, and the encoder. The command word is spec/30_encoding.md
R93 to R99 and spec/43_host_ops.md R200. The words of the other four formats carry the codes of
spec/opcode_table.json (the pass index, the bit array, the class codes of R92); where they carry an operand
the table gives no place to, the place is the model's (log entry 2). -/

namespace Sys2Proof

/-- `CW[1:0]`, `op` (R93). -/
def opField (cw : CommandWord) : BitVec 2 := cw.extractLsb' 0 2

/-- `CW[3:2]`, `BASE_SEL` (R93). -/
def baseSelField (cw : CommandWord) : BitVec 2 := cw.extractLsb' 2 2

/-- `CW[15:11]`, reserved (R97). -/
def reservedField (cw : CommandWord) : BitVec 5 := cw.extractLsb' 11 5

/-- `CW[47:16]` as the bit array of a `PARSE` (R96). -/
def bitsField (cw : CommandWord) : BitArray := cw.extractLsb' 16 32

/-- The raw fields of a `CREATE`: `CW[10:4]`, `CW[47:16]` and `CW[79:48]` (R93). -/
def rawField (cw : CommandWord) : RawFields where
  idP := cw.getLsbD 4
  idV := cw.extractLsb' 16 32
  unitP := cw.getLsbD 5
  unitV := cw.extractLsb' 48 32
  allP := cw.getLsbD 6
  allV := cw.getLsbD 7
  upP := cw.getLsbD 8
  downP := cw.getLsbD 9
  learnP := cw.getLsbD 10

/-- Dispatch of a command word, in the order of R200. -/
def decodeCommand (cw : CommandWord) : Except Reject Instr :=
  if reservedField cw ≠ 0 then .error .reservedBits
  else if opField cw = 3 then .error .reservedOp
  else if opField cw = 0 then .ok .nop
  else if opField cw = 2 then .ok (.parse (bitsField cw))
  else if (rawField cw).upP && (rawField cw).downP then .error .upAndDown
  else .ok (.create (baseSelField cw) (rawField cw))

/-- The internal words of format STEP: `b[1:0]` numbers `VALIDATE`, `REPEAT` and `MKMSG` in the table's order, and the
raw fields of `VALIDATE` stand where a `CREATE` has them. The spec gives these rows no layout: the numbers, the places,
and that every other bit must be 0 are the model's (log entry 2). -/
def decodeStep (b : BitVec 80) : Except Reject Instr :=
  match (opField b).toNat with
  | 0 =>
    if reservedField b ≠ 0 ∨ baseSelField b ≠ 0 then .error .reservedInternal
    else if (rawField b).upP && (rawField b).downP then .error .upAndDown
    else .ok (.validate (rawField b))
  | 1 => if b.extractLsb' 2 78 ≠ 0 then .error .reservedInternal else .ok .repeatCount
  | 2 => if b.extractLsb' 2 78 ≠ 0 then .error .reservedInternal else .ok .mkmsg
  | _ => .error .reservedStep

/-- The internal words of format PASS: `b[2:0]` is the pass index `PH` of the table (R29, R103). `P_SCALE`, which the
table puts "after PH=110", has the code 7 and its `BASE_SEL` in `b[4:3]`; that, and that every other bit must be 0, is the
model's (log entries 2 and 23). -/
def decodePass (b : BitVec 80) : Except Reject Instr :=
  if (b.extractLsb' 0 3).toNat = 7 then
    if b.extractLsb' 5 75 ≠ 0 then .error .reservedInternal else .ok (.pScale (b.extractLsb' 3 2))
  else if b.extractLsb' 3 77 ≠ 0 then .error .reservedInternal
  else match (b.extractLsb' 0 3).toNat with
    | 0 => .ok .pStart
    | 1 => .ok .pClear
    | 2 => .ok .pId
    | 3 => .ok .pAll
    | 4 => .ok .pState
    | 5 => .ok .pUnit
    | _ => .ok .pFooter

/-- The internal words of format BITS32: `b[31:0]` is the bit array, and `b[33:32]` numbers the table's four
rows in order, which all read the same word (R103, log entry 2). -/
def decodeBits (b : BitVec 80) : Except Reject Instr :=
  if b.extractLsb' 34 46 ≠ 0 then .error .reservedInternal
  else match (b.extractLsb' 32 2).toNat with
    | 0 => .ok (.xId (b.extractLsb' 0 32))
    | 1 => .ok (.xAll (b.extractLsb' 0 32))
    | 2 => .ok (.xState (b.extractLsb' 0 32))
    | _ => .ok (.xUnit (b.extractLsb' 0 32))

/-- The internal words of format SYM: `b[7:0]` is the class code of R92, and `b[13:8]` the group of a
four-slot symbol (log entry 2). -/
def decodeSymbol (b : BitVec 80) : Except Reject Instr :=
  if b.extractLsb' 14 66 ≠ 0 then .error .reservedInternal
  else match (b.extractLsb' 0 8).toNat with
    | 0b00000001 =>
      if (b.extractLsb' 8 6).toNat ≤ 32 then .ok (.symLow (b.extractLsb' 8 6)) else .error .groupOutOfFrame
    | 0b00010000 =>
      if (b.extractLsb' 8 6).toNat ≤ 31 then .ok (.symHigh (b.extractLsb' 8 6)) else .error .groupOutOfFrame
    | 0b0010 => if b.extractLsb' 8 6 = 0 then .ok .symStart else .error .groupOutOfFrame
    | 0b0011 => if b.extractLsb' 8 6 = 0 then .ok .symTailFooter else .error .groupOutOfFrame
    | _ => .error .notASymbol

/-- The decoder: total over every word at the port. -/
def decode (w : PortWord) : Except Reject Instr :=
  match w.format with
  | .cw => decodeCommand w.bits
  | .step => decodeStep w.bits
  | .pass => decodePass w.bits
  | .bits32 => decodeBits w.bits
  | .sym => decodeSymbol w.bits

/-- The low 16 bits of a `CREATE` as R93 lays them out: the reserved bits, the presence bits and `all_v`,
`BASE_SEL`, and the 2-bit code. -/
def packHeader (code sel : BitVec 2) (raw : RawFields) : BitVec 16 :=
  0#5 ++ BitVec.ofBool raw.learnP ++ BitVec.ofBool raw.downP ++ BitVec.ofBool raw.upP ++ BitVec.ofBool raw.allV ++
    BitVec.ofBool raw.allP ++ BitVec.ofBool raw.unitP ++ BitVec.ofBool raw.idP ++ sel ++ code

/-- The raw fields, `BASE_SEL` and a 2-bit code laid out as R93 lays out a `CREATE`. -/
def packFields (code sel : BitVec 2) (raw : RawFields) : BitVec 80 :=
  raw.unitV ++ raw.idV ++ packHeader code sel raw

/-- A PASS word: the code, and `BASE_SEL` above it. -/
def packPass (sel : BitVec 2) (code : BitVec 3) : PortWord := { format := .pass, bits := 0#75 ++ sel ++ code }

/-- A BITS32 word. -/
def packBits (row : BitVec 2) (bits : BitArray) : PortWord := { format := .bits32, bits := 0#46 ++ row ++ bits }

/-- A SYM word. -/
def packSymbol (group : BitVec 6) (code : BitVec 8) : PortWord := { format := .sym, bits := 0#66 ++ group ++ code }

/-- The encoder: the word of a well-formed operation, every bit it does not use 0. -/
def encode : Instr → PortWord
  | .nop => { format := .cw, bits := 0 }
  | .create sel raw => { format := .cw, bits := packFields 1 sel raw }
  | .parse bits => { format := .cw, bits := 0#32 ++ bits ++ 0#14 ++ 2#2 }
  | .validate raw => { format := .step, bits := packFields 0 0 raw }
  | .pStart => packPass 0 0
  | .pClear => packPass 0 1
  | .pId => packPass 0 2
  | .pAll => packPass 0 3
  | .pState => packPass 0 4
  | .pUnit => packPass 0 5
  | .pFooter => packPass 0 6
  | .pScale sel => packPass sel 7
  | .repeatCount => { format := .step, bits := 1 }
  | .xId bits => packBits 0 bits
  | .xAll bits => packBits 1 bits
  | .xState bits => packBits 2 bits
  | .xUnit bits => packBits 3 bits
  | .mkmsg => { format := .step, bits := 2 }
  | .symLow group => packSymbol group 0b00000001
  | .symHigh group => packSymbol group 0b00010000
  | .symStart => packSymbol 0 0b0010
  | .symTailFooter => packSymbol 0 0b0011

/-- The format of a table word of `nbits` bits. Words of more than one byte other than the bit array are
command words. A word of one byte is a SYM word where the byte is a symbol's class code, and else a pass
index: the table gives both formats one byte, and the codes 1, 2 and 3 are taken as symbols (log entry 3). -/
def tableFormat (nbits w : Nat) : Format :=
  if nbits = 32 then .bits32
  else if 8 < nbits then .cw
  else if nbits ≤ 3 then .pass
  else if w = 1 ∨ w = 2 ∨ w = 3 ∨ w = 16 then .sym
  else .pass

/-- The word at the port that stands for bits `w` of a row of spec/opcode_table.json. -/
def tableWord (nbits w : Nat) : PortWord :=
  { format := tableFormat nbits w, bits := BitVec.ofNat 80 (w % 2 ^ nbits) }

/-- What the decoder reads from a table row's word. -/
def decodeTableWord (nbits w : Nat) : Option Instr := (decode (tableWord nbits w)).toOption

end Sys2Proof
end

