-- ==== Sys2Proof/Config.lean ====
section
/-! DEFINITION. The constants of the codec: the protocol constants (spec/00_scope.md R9, R10), the open
parameter `PULSE_DIV` (R11) and the read-only descriptor `DSC0..DSC9` (spec/10_state.md R30, R31, R34).
They are definitions and no state (spec/70_reset_and_hazards.md R242). `TRAIN_LEN` is the 132 in the types of
Machine/State.lean. -/

namespace Sys2Proof.Config

/-- `MULT` of R9: the coefficient of the long slot of a bit symbol. -/
abbrev mult : Nat := 5

/-- `START_MULT` of R9: the coefficient of slot 1. -/
abbrev startMult : Nat := 9

/-- `PRESETS` of R9, in the order the rule lists them. -/
def presets : Vector Nat 4 := #v[315, 251, 294, 303]

/-- `base = PRESETS[BASE_SEL]` of R13. -/
def base (sel : BitVec 2) : Nat := presets[sel.toNat]'sel.isLt

/-- The open parameter behind `PULSE_DIV` (R11): no value is stated, so this constant has no body.
`pulseDiv` is its value plus one, which is every value R12 allows for 16-bit slots (log entry 1). -/
opaque pulseDivLessOne : Fin 208

/-- `PULSE_DIV` of R11: a positive integer, at most 208 because slots have 16 bits (R12, R158). -/
def pulseDiv : Nat := pulseDivLessOne.val + 1

/-- `REPEAT_NORMAL` of R9. -/
abbrev repeatNormal : BitVec 6 := 10

/-- `REPEAT_LEARN` of R9. -/
abbrev repeatLearn : BitVec 6 := 40

/-- `ID_MIN` of R9. -/
abbrev idMin : Int := 1

/-- `ID_MAX` of R9. -/
abbrev idMax : Int := 67108863

/-- `UNIT_MIN` of R9. -/
abbrev unitMin : Int := 0

/-- `UNIT_MAX` of R9. -/
abbrev unitMax : Int := 15

/-- `CLEAR_FIRST` of R10. -/
abbrev clearFirst : Nat := 2

/-- The number of start slots from `CLEAR_FIRST` to `CLEAR_LAST_BOUND` in steps of `GROUP` (R10, R142). -/
abbrev clearGroups : Nat := 33

/-- `ID_ANCHOR` of R10. -/
abbrev idAnchor : Nat := 106

/-- First slot of the `all` group (R10). -/
abbrev allSlot : Nat := 106

/-- First slot of the `state` group (R10). -/
abbrev stateSlot : Nat := 110

/-- `UNIT_ANCHOR` of R10. -/
abbrev unitAnchor : Nat := 130

/-- The tail slot, the first slot of the clear pass's last group (R85). -/
abbrev tailSlot : Nat := 130

/-- `FOOTER_SLOT` of R10. -/
abbrev footerSlot : Nat := 131

/-- The texts of the two device-family labels (R34): they exist and are not stated, so no body
(log entry 13). -/
opaque familyLabel : Fin 2 → String

/-! What an internal step reads where the register `CM` holds no value: the field of the n-th such read. The spec
states no value there and forbids zero and the old contents (spec/10_state.md R35), so none of these has a body (log
entry 7). -/

/-- What stands for `CM.id`. -/
opaque unheldId : Nat → BitVec 26

/-- What stands for `CM.unit`. -/
opaque unheldUnit : Nat → BitVec 4

/-- What stands for `CM.state`, as its bit. -/
opaque unheldUp : Nat → Bool

/-- What stands for `CM.all`. -/
opaque unheldAll : Nat → Bool

/-- What stands for `CM.learn`. -/
opaque unheldLearn : Nat → Bool

/-- `DSC9`: the inclusive bit ranges of the frame (R30). -/
structure BitLayout where
  idFirst : Nat
  idLast : Nat
  allBit : Nat
  stateBit : Nat
  unitFirst : Nat
  unitLast : Nat
  deriving DecidableEq, Repr

/-- The ProtocolDescriptor, `DSC0` to `DSC9` in order (R30). -/
structure Descriptor where
  protocolId : String
  deviceType : String
  channelType : String
  presets : List Nat
  multiplier : Nat
  defaultTrainLength : Nat
  lsbMark : Nat
  firstLabel : String
  secondLabel : String
  layout : BitLayout
  deriving DecidableEq, Repr

/-- The descriptor's fixed values (R30); `LSB_MARK = 3` is exposed and nothing reads it (R31). -/
def descriptor : Descriptor where
  protocolId := "arctech_screen"
  deviceType := "screen"
  channelType := "RF433"
  presets := [315, 251, 294, 303]
  multiplier := 5
  defaultTrainLength := 132
  lsbMark := 3
  firstLabel := familyLabel 0
  secondLabel := familyLabel 1
  layout := { idFirst := 0, idLast := 25, allBit := 26, stateBit := 27, unitFirst := 28, unitLast := 31 }

end Sys2Proof.Config
end

