-- ==== Sys2Proof/Machine/State.lean ====
section
/-! DEFINITION. The state of the codec as plain data (spec/10_state.md): the result registers of R20, the
internal `PH` and `K`, the log events of R37 and the input port; the faults and the refusals; reset (R36). -/

namespace Sys2Proof.Machine

/-- `CM.state`: Up or Down (R21). -/
inductive Direction where
  | down
  | up
  deriving DecidableEq, Repr

/-- A whole CommandModel (R21). -/
structure CommandModel where
  id : BitVec 26
  unit : BitVec 4
  state : Direction
  all : Bool
  learn : Bool
  deriving DecidableEq, Repr

/-- The register `CM`, field by field; `none` is the spec's "holds no value" (R35, log entry 11). -/
structure CommandRegister where
  id : Option (BitVec 26)
  unit : Option (BitVec 4)
  state : Option Direction
  all : Option Bool
  learn : Option Bool
  deriving DecidableEq, Repr

/-- The coefficient of a slot, one of 1, `MULT`, `START_MULT` and `PULSE_DIV` (spec/20_memory.md R52), under
the class codes 00, 01, 10 and 11 of spec/30_encoding.md R92. -/
inductive Coef where
  | one
  | mult
  | startMult
  | pulseDiv
  deriving DecidableEq, Repr

/-- The coefficient array `K` of the slot space (R15, R50). -/
abbrev Coefs := Vector Coef 132

/-- A pulse train: exactly 132 slots of `SLOT_W` = 16 bits (R22). -/
abbrev Train := Vector (BitVec 16) 132

/-- The record exposed to the host (R26). `unit` holds a value only where `hasUnit`, `all` only where `hasAll`. -/
structure Message where
  id : BitVec 26
  hasUnit : Bool
  unit : Option (BitVec 4)
  hasAll : Bool
  all : Option (BitVec 1)
  state : Direction
  deriving DecidableEq, Repr

/-- The four failure kinds (spec/60_exceptions.md R211). -/
inductive FailKind where
  | conflictingOptions
  | missingArguments
  | idOutOfRange
  | unitOutOfRange
  deriving DecidableEq, Repr

/-- What validation produces: a CommandModel or a failure kind (spec/40_validate.md R120). -/
inductive Verdict where
  | valid (c : CommandModel)
  | failed (k : FailKind)
  deriving DecidableEq, Repr

/-- The severity of a log event; the block uses one (R37). -/
inductive Severity where
  | error
  deriving DecidableEq, Repr

/-- The event `LOG(severity, kind)` (R37, log entry 12). -/
structure LogEvent where
  severity : Severity
  kind : FailKind
  deriving DecidableEq, Repr

/-- The registers that can hold no value (R35), by the names a read fault carries. -/
inductive ValueRegister where
  | command
  | train
  | repeatCount
  | message
  deriving DecidableEq, Repr

/-- The faults. Each is a reader's or the host's; no step of the block faults. -/
inductive Fault where
  /-- The host or the transmitter reads a register that holds no value, its validity flag being 0. Raised by the
  readers of Machine/Operands.lean and by the transmitter's read, never by `step`. Safe: R35 and
  spec/93_implementation_defined.md U5 make it a fault of the reader. -/
  | noValue (register : ValueRegister)
  /-- A reader asks for a slot index of 132 or above while a valid train is held (log entry 18). Safe: such
  an access is not an access to the train (spec/20_memory.md R51). -/
  | slotOutsideTrain (index : Nat)
  /-- The train is replaced while the transmitter is reading it. Raised by the block with its transmitter
  (Machine/Transmitter.lean), never by `step`. Safe: spec/70_reset_and_hazards.md R247, entry U9. -/
  | createWhileReading
  deriving DecidableEq, Repr

/-- The ways a run leaves the specified domain. -/
inductive Refusal where
  /-- An operation that has no meaning in this model; no operation is one. Safe. -/
  | notModelled (mnemonic : String)
  /-- The word at the port is rejected by the decoder, or `CREATE` or `VALIDATE` is given `up` and `down`
  together (spec/30_encoding.md R97 to R99). Safe: R224 gives such an input no meaning. -/
  | rejectedWord (why : Reject)
  /-- The host offers a bit buffer of fewer than 32 entries (spec/20_memory.md R53). Safe: U6 refuses it. -/
  | shortBuffer (entries : Nat)
  deriving DecidableEq, Repr

/-- The state. The fields down to `msgValid` are the registers of R20; `ph` is the pass index of R29 and `k`
the coefficient array of R15, neither visible to the host; the last four are the model's own:
the outcome of the last validation, the log events fired so far, the words presented and not yet taken, and how many
fields an internal step has read where `CM` held none (log entry 7). -/
structure State where
  cm : CommandRegister
  cmValid : Bool
  train : Option Train
  trainValid : Bool
  repeatCount : Option (BitVec 6)
  fail : Bool
  err : BitVec 3
  msg : Option Message
  msgValid : Bool
  ph : BitVec 3
  k : Coefs
  verdict : Option Verdict
  log : List LogEvent
  port : List PortWord
  unheldReads : Nat
  deriving DecidableEq, Repr

/-- `CM` holding no value (R35). -/
def CommandRegister.absent : CommandRegister :=
  { id := none, unit := none, state := none, all := none, learn := none }

/-- The state after reset (R36, spec/70_reset_and_hazards.md R240). `K` has no stated reset value: every
coefficient is 1, class code 00 (log entry 4). -/
def State.reset : State where
  cm := CommandRegister.absent
  cmValid := false
  train := none
  trainValid := false
  repeatCount := none
  fail := false
  err := 0
  msg := none
  msgValid := false
  ph := 0
  k := Vector.replicate 132 Coef.one
  verdict := none
  log := []
  port := []
  unheldReads := 0

end Sys2Proof.Machine
end

