-- ==== Sys2Proof/Machine/Operands.lean ====
section
/-! DEFINITION. The operands: the derived signals of the raw fields, the fields of a bit array, the reads of
the registers, and what a host reads at the ports. -/

namespace Sys2Proof.Machine

/-- What a meaning answers. -/
abbrev Result := Host.Outcome State Fault Refusal

/-- `all_t = all_p and all_v`, "present and truthy" (spec/10_state.md R28). -/
def allT (raw : RawFields) : Bool := raw.allP && raw.allV

/-- `state_p = up_p or down_p` (R28). -/
def stateP (raw : RawFields) : Bool := raw.upP || raw.downP

/-- `id_v` lies outside `ID_MIN .. ID_MAX` as a signed integer (spec/40_validate.md R123, R129). -/
def idOutside (raw : RawFields) : Bool :=
  decide (raw.idV.toInt < Config.idMin) || decide (Config.idMax < raw.idV.toInt)

/-- `unit_v` lies outside `UNIT_MIN .. UNIT_MAX` as a signed integer (R124, R129). -/
def unitOutside (raw : RawFields) : Bool :=
  decide (raw.unitV.toInt < Config.unitMin) || decide (Config.unitMax < raw.unitV.toInt)

/-- The direction a 1-bit `state` stands for: 1 is Up, 0 is Down (R21). -/
def directionOf (b : Bool) : Direction := if b then .up else .down

/-- The 1-bit `state` of a direction (R21). -/
def directionBit : Direction → Bool
  | .down => false
  | .up => true

/-- The string of a direction in the message record (R26). -/
def directionText : Direction → String
  | .down => "down"
  | .up => "up"

/-- `X_ID`: `BITS[0..25]`, weight `2^k` at entry `k` (spec/42_decoder.md R172). -/
def idOfBits (bits : BitArray) : BitVec 26 := bits.extractLsb' 0 26

/-- `X_ALL`: `BITS[26]` (R173). -/
def allOfBits (bits : BitArray) : Bool := bits.getLsbD 26

/-- `X_STATE`: `BITS[27]`, 1 is Up (R174). -/
def stateOfBits (bits : BitArray) : Direction := directionOf (bits.getLsbD 27)

/-- `X_UNIT`: `BITS[28..31]`, weight `2^k` at entry `28 + k` (R175). -/
def unitOfBits (bits : BitArray) : BitVec 4 := bits.extractLsb' 28 4

/-- `DECODE` as a whole; `learn` is 0 (R170, R171). -/
def decodeBitArray (bits : BitArray) : CommandModel where
  id := idOfBits bits
  unit := unitOfBits bits
  state := stateOfBits bits
  all := allOfBits bits
  learn := false

/-- The factor a coefficient stands for (spec/20_memory.md R52). -/
def Coef.value : Coef → Nat
  | .one => 1
  | .mult => Config.mult
  | .startMult => Config.startMult
  | .pulseDiv => Config.pulseDiv

/-- The class code of a coefficient (spec/30_encoding.md R92). -/
def Coef.classCode : Coef → BitVec 2
  | .one => 0b00
  | .mult => 0b01
  | .startMult => 0b10
  | .pulseDiv => 0b11

/-- The duration of a slot: coefficient times base, in 16 bits (R52, spec/41_encoder.md R148). -/
def duration (base : Nat) (c : Coef) : BitVec 16 := BitVec.ofNat 16 (c.value * base)

/-- The register `CM` holding the whole of `c`. -/
def CommandRegister.holding (c : CommandModel) : CommandRegister :=
  { id := some c.id, unit := some c.unit, state := some c.state, all := some c.all, learn := some c.learn }

/-- The CommandModel the register holds, where every field holds a value. -/
def CommandRegister.model? (r : CommandRegister) : Option CommandModel :=
  match r.id, r.unit, r.state, r.all, r.learn with
  | some id, some unit, some state, some all, some learn =>
    some { id := id, unit := unit, state := state, all := all, learn := learn }
  | _, _, _, _, _ => none

/-- One more field has been read where `CM` held none. -/
def State.countUnheldRead (s : State) : State := { s with unheldReads := s.unheldReads + 1 }

/-- A read of a field of `CM` by an internal step: its value, or, where it holds none, a free value. R35 forbids that read
to the host and the transmitter and lets nothing stand for the value; a pass has no precondition on the values and cannot
fail (spec/41_encoder.md R150), so the step goes on (log entry 7). -/
def readHeld {α : Type} (value : Option α) (free : Nat → α) (s : State) : α × State :=
  match value with
  | some a => (a, s)
  | none => (free s.unheldReads, s.countUnheldRead)

/-- `CM.unit` as `P_UNIT` and `MKMSG` read it: only where the `all` read before it is 0, and else they use no unit. -/
def readUnit (all : Bool) (s : State) : BitVec 4 × State :=
  if all then (0, s) else readHeld s.cm.unit Config.unheldUnit s

/-- The host or the transmitter reads `TRAIN[i]`: a value only while `TRAIN_VALID = 1` (R35, entry U5) and only in the slots 0
to 131 (R51). That a read of slot 132 or above is `noValue` and not `slotOutsideTrain` while there is no train is the
model's choice: the spec does not say which fault comes first (log entry 18). -/
def readSlot (s : State) (i : Nat) : Except Fault (BitVec 16) :=
  if s.trainValid then
    match s.train with
    | some t => if h : i < 132 then .ok t[i] else .error (.slotOutsideTrain i)
    | none => .error (.noValue .train)
  else .error (.noValue .train)

/-- The transmitter reads `REPEAT`, which holds a value only while `TRAIN_VALID = 1` (R23, R35). -/
def readRepeat (s : State) : Except Fault (BitVec 6) :=
  if s.trainValid then
    match s.repeatCount with
    | some r => .ok r
    | none => .error (.noValue .repeatCount)
  else .error (.noValue .repeatCount)

/-- The host reads `CM` (R35, entry U5). -/
def readCommand (s : State) : Except Fault CommandModel :=
  if s.cmValid then
    match s.cm.model? with
    | some c => .ok c
    | none => .error (.noValue .command)
  else .error (.noValue .command)

/-- The host reads `MSG` (R35, entry U5). -/
def readMessage (s : State) : Except Fault Message :=
  if s.msgValid then
    match s.msg with
    | some m => .ok m
    | none => .error (.noValue .message)
  else .error (.noValue .message)

/-- The host reads `STATUS`: `FAIL` and `ERR`, at any time (R25). -/
def readStatus (s : State) : Bool × BitVec 3 := (s.fail, s.err)

/-- The host reads the descriptor: every operation leaves it as it is (spec/43_host_ops.md R202). -/
def readDescriptor (_ : State) : Config.Descriptor := Config.descriptor

/-- The host presents its bit buffer: entries 0 to 31 are used and a shorter buffer is refused (spec/20_memory.md R53). -/
def bitsOfBuffer (buffer : List Bool) : Except Refusal BitArray :=
  if buffer.length < 32 then .error (.shortBuffer buffer.length)
  else .ok (BitVec.ofFnLE fun j => buffer.getD j.val false)

end Sys2Proof.Machine
end

