-- ==== Sys2Proof/Machine/Flags.lean ====
section
/-! DEFINITION. The flags `FAIL`, `ERR`, `TRAIN_VALID`, `CM_VALID` and `MSG_VALID` (spec/10_state.md R32): the
codes, the updates, and taking a failure (spec/60_exceptions.md R214). There are no condition codes and no
arithmetic flags (R32), and there is no return from a failure (R219). -/

namespace Sys2Proof.Machine

/-- The `ERR` code of a failure kind (R25, R211). -/
def FailKind.code : FailKind → BitVec 3
  | .conflictingOptions => 1
  | .missingArguments => 2
  | .idOutOfRange => 3
  | .unitOutOfRange => 4

/-- `CM_VALID <- 1` (spec/43_host_ops.md R192, R194). -/
def State.markCommand (s : State) : State := { s with cmValid := true }

/-- The end of a successful `CREATE` and of a `PARSE`: `MSG_VALID <- 1`, `FAIL <- 0`, `ERR <- 0` (R192, R194). -/
def State.reportSuccess (s : State) : State := { s with msgValid := true, fail := false, err := 0 }

/-- `fail k` of a `CREATE` (R193, R214): `FAIL`, `ERR`, one `LOG(Error, k)`, the three validity flags 0, and
`TRAIN`, `REPEAT`, `CM` and `MSG` holding no value. Control goes nowhere. -/
def State.takeFailure (k : FailKind) (s : State) : State :=
  { s with
    fail := true
    err := k.code
    log := s.log ++ [{ severity := .error, kind := k }]
    trainValid := false
    cmValid := false
    msgValid := false
    train := none
    repeatCount := none
    cm := CommandRegister.absent
    msg := none }

end Sys2Proof.Machine
end

