-- ==== Sys2Proof/Machine/Ops.lean ====
section
/-! DEFINITION. The shared operations: writes of the slot space and the placement of fields (spec/30_encoding.md
R88 to R90), the passes over `K` (spec/41_encoder.md R141 to R147), the updates of the registers, `ENCODE`
(R140), the message record (spec/43_host_ops.md R197) and taking a word from the port. -/

namespace Sys2Proof.Machine

/-! ### The slot space -/

/-- The symbol `LOW` (R81). -/
def symbolLow : List Coef := [.one, .one, .one, .mult]

/-- The symbol `HIGH` (R82). -/
def symbolHigh : List Coef := [.one, .mult, .one, .one]

/-- The start marker (R84). -/
def symbolStart : List Coef := [.one, .startMult]

/-- The tail slot and the footer (R85). -/
def symbolTailFooter : List Coef := [.one, .pulseDiv]

/-- The class code of a run of slots, first slot first (R92). -/
def classCodes : List Coef → List (BitVec 2)
  | [] => []
  | c :: rest => c.classCode :: classCodes rest

/-- `put(slot, pattern)` of spec/00_scope.md R15: the coefficients from `slot` on, and a write to a slot index
of 132 or above is dropped (spec/20_memory.md R57). -/
def put (k : Coefs) : Nat → List Coef → Coefs
  | _, [] => k
  | slot, c :: rest => put (k.setIfInBounds slot c) (slot + 1) rest

/-- The first slot of group `g` (R16). -/
abbrev groupSlot (g : Nat) : Nat := 2 + 4 * g

/-- The start slot of the digit at distance `d` from the most significant digit of a field with anchor
`anchor`: `anchor - 4 * (d + 1)` (R88). -/
abbrev digitSlot (anchor d : Nat) : Nat := anchor - 4 * (d + 1)

/-- Overlay of a single bit: `HIGH` at `slot` where the bit is 1, nothing where it is 0 (R89, R90). -/
def overlayBit (slot : Nat) (b : Bool) (k : Coefs) : Coefs := if b then put k slot symbolHigh else k

/-- Overlay of a field of `w` digits, most significant digit first (R88, R105): the digit at distance `d` has
weight `2 ^ (w - 1 - d)`. -/
def overlayField (anchor : Nat) {w : Nat} (v : BitVec w) (k : Coefs) : Coefs :=
  (List.range w).foldl (fun acc d => overlayBit (digitSlot anchor d) (v.getLsbD (w - 1 - d)) acc) k

/-- `P_START` on `K` (R141). -/
def startCoefs (k : Coefs) : Coefs := put k 0 symbolStart

/-- `P_CLEAR` on `K` (R142): `LOW` at the 33 start slots 2, 6, …, 130. -/
def clearCoefs (k : Coefs) : Coefs :=
  (List.range Config.clearGroups).foldl (fun acc g => put acc (Config.clearFirst + 4 * g) symbolLow) k

/-- `P_ID` on `K` (R143). -/
def idCoefs (id : BitVec 26) (k : Coefs) : Coefs := overlayField Config.idAnchor id k

/-- `P_ALL` on `K` (R144). -/
def allCoefs (all : Bool) (k : Coefs) : Coefs := overlayBit Config.allSlot all k

/-- `P_STATE` on `K` (R145). -/
def stateCoefs (d : Direction) (k : Coefs) : Coefs := overlayBit Config.stateSlot (directionBit d) k

/-- `P_UNIT` on `K` (R146): nothing is written in all-devices mode. -/
def unitCoefs (all : Bool) (unit : BitVec 4) (k : Coefs) : Coefs :=
  if all then k else overlayField Config.unitAnchor unit k

/-- `P_FOOTER` on `K` (R147). -/
def footerCoefs (k : Coefs) : Coefs := put k Config.footerSlot [.pulseDiv]

/-- `P_SCALE`'s products, slot by slot (R148). -/
def scaleCoefs (base : Nat) (k : Coefs) : Train := Vector.ofFn fun i => duration base k[i]

/-! ### Updates of the registers -/

/-- A pass of index `pass` ends: it leaves `K` as `k` and `PH` one further, back at 0 after the seventh pass
(spec/10_state.md R29, log entry 5). -/
def State.endPass (pass : BitVec 3) (k : Coefs) (s : State) : State :=
  { s with k := k, ph := if pass = 6 then 0 else pass + 1 }

/-- A write of `K` outside the passes. -/
def State.writeCoefs (k : Coefs) (s : State) : State := { s with k := k }

/-- The start of a `CREATE`: its validation outcome is kept, and `PH` is 0 (R29, R191). -/
def State.openCreate (v : Verdict) (s : State) : State := { s with verdict := some v, ph := 0 }

/-- The outcome of a validation, in the model's own field (log entry 6). -/
def State.keepVerdict (v : Verdict) (s : State) : State := { s with verdict := some v }

/-- `CM <- c` (R192). -/
def State.loadCommand (c : CommandModel) (s : State) : State := { s with cm := CommandRegister.holding c }

/-- `CM.id <- id` (spec/42_decoder.md R171, R172). -/
def State.writeId (id : BitVec 26) (s : State) : State := { s with cm := { s.cm with id := some id } }

/-- `CM.all <- all` (R171, R173). -/
def State.writeAll (all : Bool) (s : State) : State := { s with cm := { s.cm with all := some all } }

/-- `CM.state <- d` (R171, R174). -/
def State.writeDirection (d : Direction) (s : State) : State := { s with cm := { s.cm with state := some d } }

/-- `CM.unit <- unit` (R171, R175). -/
def State.writeUnit (unit : BitVec 4) (s : State) : State := { s with cm := { s.cm with unit := some unit } }

/-- `CM.learn <- 0` of `DECODE` (R171). -/
def State.clearLearn (s : State) : State := { s with cm := { s.cm with learn := some false } }

/-- The train is published: `TRAIN <- t`, `TRAIN_VALID <- 1` (R148). -/
def State.publishTrain (t : Train) (s : State) : State := { s with train := some t, trainValid := true }

/-- `REPEAT <- r` (R149). -/
def State.writeRepeat (r : BitVec 6) (s : State) : State := { s with repeatCount := some r }

/-- `MSG <- m` (R197). -/
def State.writeMessage (m : Message) (s : State) : State := { s with msg := some m }

/-- The word at the head of the port is taken; the block does not keep it (spec/10_state.md R20). -/
def State.takeWord (rest : List PortWord) (s : State) : State := { s with port := rest }

/-! ### The steps of `ENCODE` on the state -/

/-- `P_START` (R141). -/
def State.passStart (s : State) : State := s.endPass 0 (startCoefs s.k)

/-- `P_CLEAR` (R142). -/
def State.passClear (s : State) : State := s.endPass 1 (clearCoefs s.k)

/-- `P_ID` (R143). -/
def State.passId (id : BitVec 26) (s : State) : State := s.endPass 2 (idCoefs id s.k)

/-- `P_ALL` (R144). -/
def State.passAll (all : Bool) (s : State) : State := s.endPass 3 (allCoefs all s.k)

/-- `P_STATE` (R145). -/
def State.passState (d : Direction) (s : State) : State := s.endPass 4 (stateCoefs d s.k)

/-- `P_UNIT` (R146). -/
def State.passUnit (all : Bool) (unit : BitVec 4) (s : State) : State := s.endPass 5 (unitCoefs all unit s.k)

/-- `P_FOOTER` (R147). -/
def State.passFooter (s : State) : State := s.endPass 6 (footerCoefs s.k)

/-- `P_SCALE` (R148). -/
def State.scaleTrain (sel : BitVec 2) (s : State) : State := s.publishTrain (scaleCoefs (Config.base sel) s.k)

/-- The repeat count of a command (R149). -/
def repeatOf (learn : Bool) : BitVec 6 := if learn then Config.repeatLearn else Config.repeatNormal

/-- `ENCODE(CM, base)`: the seven passes, the scaling and the repeat-count step, in the order of R140. -/
def State.encode (c : CommandModel) (sel : BitVec 2) (s : State) : State :=
  let cleared := s.passStart.passClear
  let placed := (((cleared.passId c.id).passAll c.all).passState c.state).passUnit c.all c.unit
  (placed.passFooter.scaleTrain sel).writeRepeat (repeatOf c.learn)

/-- The message record from the fields of `CM` (R197). In all-devices mode it has the key `all`, with the number 1,
and no `unit`. -/
def makeMessage (id : BitVec 26) (all : Bool) (unit : BitVec 4) (d : Direction) : Message :=
  if all then { id := id, hasUnit := false, unit := none, hasAll := true, all := some 1, state := d }
  else { id := id, hasUnit := true, unit := some unit, hasAll := false, all := none, state := d }

/-- The message record of a whole CommandModel (R197). -/
def messageOf (c : CommandModel) : Message := makeMessage c.id c.all c.unit c.state

/-! ### The port -/

/-- What the block does at its port: nothing stands there, a word is rejected, or an operation is taken. -/
inductive Fetched where
  | idle
  | rejected (why : Reject)
  | operation (i : Instr) (rest : List PortWord)
  deriving DecidableEq, Repr

/-- The word at the head of the port, decoded (R200). -/
def fetch (s : State) : Fetched :=
  match s.port with
  | [] => .idle
  | w :: rest =>
    match decode w with
    | .error why => .rejected why
    | .ok i => .operation i rest

end Sys2Proof.Machine
end

