-- ==== Sys2Proof/Machine/Decoder.lean ====
section
/-! DEFINITION. The four field extractions of the decoder, each as an operation of its own, writing its field of
the register `CM` (spec/42_decoder.md R171 to R175). -/

namespace Sys2Proof.Machine

/-- `X_ID` (R172). -/
def execXId (bits : BitArray) (s : State) : Result := .next (s.writeId (idOfBits bits))

/-- `X_ALL` (R173). -/
def execXAll (bits : BitArray) (s : State) : Result := .next (s.writeAll (allOfBits bits))

/-- `X_STATE` (R174). -/
def execXState (bits : BitArray) (s : State) : Result := .next (s.writeDirection (stateOfBits bits))

/-- `X_UNIT` (R175): performed whatever `BITS[26]` is. -/
def execXUnit (bits : BitArray) (s : State) : Result := .next (s.writeUnit (unitOfBits bits))

end Sys2Proof.Machine
end

