-- ==== Sys2Proof/Machine/Encoder.lean ====
section
/-! DEFINITION. The seven encoder passes, the scaling and the repeat-count step, each as an operation of its own
(spec/41_encoder.md R141 to R149). A pass reads its operands in the register `CM`; where the register holds no
value it reads a free value (log entry 7). -/

namespace Sys2Proof.Machine

/-- `P_START` (R141). -/
def execPStart (s : State) : Result := .next s.passStart

/-- `P_CLEAR` (R142). -/
def execPClear (s : State) : Result := .next s.passClear

/-- `P_ID` (R143). -/
def execPId (s : State) : Result :=
  let id := readHeld s.cm.id Config.unheldId s
  .next (id.2.passId id.1)

/-- `P_ALL` (R144). -/
def execPAll (s : State) : Result :=
  let all := readHeld s.cm.all Config.unheldAll s
  .next (all.2.passAll all.1)

/-- `P_STATE` (R145). -/
def execPState (s : State) : Result :=
  let d := readHeld s.cm.state (fun n => directionOf (Config.unheldUp n)) s
  .next (d.2.passState d.1)

/-- `P_UNIT` (R146): `CM.unit` is read only where `CM.all = 0`. -/
def execPUnit (s : State) : Result :=
  let all := readHeld s.cm.all Config.unheldAll s
  let unit := readUnit all.1 all.2
  .next (unit.2.passUnit all.1 unit.1)

/-- `P_FOOTER` (R147). -/
def execPFooter (s : State) : Result := .next s.passFooter

/-- `P_SCALE` (R148). -/
def execPScale (sel : BitVec 2) (s : State) : Result := .next (s.scaleTrain sel)

/-- `REPEAT` (R149). -/
def execRepeatCount (s : State) : Result :=
  let learn := readHeld s.cm.learn Config.unheldLearn s
  .next (learn.2.writeRepeat (repeatOf learn.1))

end Sys2Proof.Machine
end

