-- ==== Sys2Proof/Machine/Validate.lean ====
section
/-! DEFINITION. `VALIDATE` (spec/40_validate.md R120 to R131). -/

namespace Sys2Proof.Machine

/-- The CommandModel of raw fields that pass every check (R125, R126, R127). -/
def commandOf (raw : RawFields) : CommandModel where
  id := raw.idV.extractLsb' 0 26
  unit := if allT raw then 0 else raw.unitV.extractLsb' 0 4
  state := directionOf raw.upP
  all := allT raw
  learn := raw.learnP

/-- Check 2: `id`, `unit` and `all`, or `state` is missing (R122). -/
def argumentsMissing (raw : RawFields) : Bool :=
  !raw.idP || (!raw.unitP && !allT raw) || !stateP raw

/-- The four checks, first failing rule wins, and the CommandModel (R120 to R125). -/
def validateFields (raw : RawFields) : Verdict :=
  if allT raw && raw.learnP then .failed .conflictingOptions
  else if argumentsMissing raw then .failed .missingArguments
  else if idOutside raw then .failed .idOutOfRange
  else if !allT raw && unitOutside raw then .failed .unitOutOfRange
  else .valid (commandOf raw)

/-- `VALIDATE` on its own: it reports its outcome and has no other effect (R120). Fields with `up` and `down`
both present are outside its domain and refused (R99, R128, log entry 8). -/
def execValidate (raw : RawFields) (s : State) : Result :=
  if raw.wellFormed then .next (s.keepVerdict (validateFields raw)) else .refused (.rejectedWord .upAndDown)

end Sys2Proof.Machine
end

