-- ==== Sys2Proof/Machine/HostOps.lean ====
section
/-! DEFINITION. The operations a host presents, `NOP`, `CREATE` and `PARSE`, and the message record
(spec/43_host_ops.md R190 to R203). -/

namespace Sys2Proof.Machine

/-- `NOP` (R190). -/
def execNop (s : State) : Result := .next s

/-- A `CREATE` whose fields are valid (R192). -/
def State.completeCreate (c : CommandModel) (sel : BitVec 2) (s : State) : State :=
  (((s.loadCommand c).markCommand.encode c sel).writeMessage (messageOf c)).reportSuccess

/-- `CREATE` (R191): `VALIDATE`, then R192 or R193. With `up` and `down` both present the word is refused (R99). -/
def execCreate (sel : BitVec 2) (raw : RawFields) (s : State) : Result :=
  if raw.wellFormed then
    match validateFields raw with
    | .failed k => .next ((s.openCreate (.failed k)).takeFailure k)
    | .valid c => .next ((s.openCreate (.valid c)).completeCreate c sel)
  else .refused (.rejectedWord .upAndDown)

/-- `PARSE` (R194): the four extractions in the order of spec/42_decoder.md R170, `CM.learn <- 0` (R171), the
message record and the flags. -/
def execParse (bits : BitArray) (s : State) : Result :=
  let extracted := (((s.writeUnit (unitOfBits bits)).writeDirection (stateOfBits bits)).writeAll
    (allOfBits bits)).writeId (idOfBits bits)
  .next ((extracted.clearLearn.markCommand.writeMessage (messageOf (decodeBitArray bits))).reportSuccess)

/-- `MKMSG` (R197): the fields of `CM` it needs are read, `CM.unit` only where `CM.all = 0`. -/
def execMkmsg (s : State) : Result :=
  let id := readHeld s.cm.id Config.unheldId s
  let all := readHeld s.cm.all Config.unheldAll id.2
  let d := readHeld s.cm.state (fun n => directionOf (Config.unheldUp n)) all.2
  let unit := readUnit all.1 d.2
  .next (unit.2.writeMessage (makeMessage id.1 all.1 unit.1 d.1))

end Sys2Proof.Machine
end

