-- ==== Sys2Proof/Machine/Symbols.lean ====
section
/-! DEFINITION. The four frame elements, each as one write of the slot space (spec/30_encoding.md R81, R82, R84,
R85, log entry 10). -/

namespace Sys2Proof.Machine

/-- `SYM_LOW` in group `group` (R81); group 32 is the clear pass's overhanging one (spec/20_memory.md R57). -/
def execSymLow (group : BitVec 6) (s : State) : Result :=
  .next (s.writeCoefs (put s.k (groupSlot group.toNat) symbolLow))

/-- `SYM_HIGH` in group `group` (R82). -/
def execSymHigh (group : BitVec 6) (s : State) : Result :=
  .next (s.writeCoefs (put s.k (groupSlot group.toNat) symbolHigh))

/-- `SYM_START`: the start marker in slots 0 and 1 (R84). -/
def execSymStart (s : State) : Result := .next (s.writeCoefs (put s.k 0 symbolStart))

/-- `SYM_TAIL_FOOTER`: slots 130 and 131 (R85). -/
def execSymTailFooter (s : State) : Result := .next (s.writeCoefs (put s.k Config.tailSlot symbolTailFooter))

end Sys2Proof.Machine
end

