-- ==== Sys2Proof/Machine/Dispatch.lean ====
section
/-! DEFINITION. One arm for each constructor of Instr. -/

namespace Sys2Proof.Machine

def exec (i : Instr) (s : State) : Host.Outcome State Fault Refusal :=
  match i with
  | .nop => Sys2Proof.Machine.execNop s
  | .create baseSel raw => Sys2Proof.Machine.execCreate baseSel raw s
  | .parse bits => Sys2Proof.Machine.execParse bits s
  | .validate raw => Sys2Proof.Machine.execValidate raw s
  | .pStart => Sys2Proof.Machine.execPStart s
  | .pClear => Sys2Proof.Machine.execPClear s
  | .pId => Sys2Proof.Machine.execPId s
  | .pAll => Sys2Proof.Machine.execPAll s
  | .pState => Sys2Proof.Machine.execPState s
  | .pUnit => Sys2Proof.Machine.execPUnit s
  | .pFooter => Sys2Proof.Machine.execPFooter s
  | .pScale baseSel => Sys2Proof.Machine.execPScale baseSel s
  | .repeatCount => Sys2Proof.Machine.execRepeatCount s
  | .xId bits => Sys2Proof.Machine.execXId bits s
  | .xAll bits => Sys2Proof.Machine.execXAll bits s
  | .xState bits => Sys2Proof.Machine.execXState bits s
  | .xUnit bits => Sys2Proof.Machine.execXUnit bits s
  | .mkmsg => Sys2Proof.Machine.execMkmsg s
  | .symLow group => Sys2Proof.Machine.execSymLow group s
  | .symHigh group => Sys2Proof.Machine.execSymHigh group s
  | .symStart => Sys2Proof.Machine.execSymStart s
  | .symTailFooter => Sys2Proof.Machine.execSymTailFooter s

end Sys2Proof.Machine
end

