-- ==== Sys2Proof/Machine/Step.lean ====
section
/-! DEFINITION. One step: the block takes the word at the head of its port and does its operation whole
(spec/20_memory.md R62); with nothing at the port it stays as it is (spec/70_reset_and_hazards.md R241,
log entry 9). -/

namespace Sys2Proof.Machine

/-- One step of the block. -/
def step (s : State) : Host.Outcome State Fault Refusal :=
  match fetch s with
  | .idle => .next s
  | .rejected why => .refused (.rejectedWord why)
  | .operation i rest => exec i (s.takeWord rest)

/-- `s` with the word of a table row presented before whatever stands at the port. -/
def State.withFetchWord (s : State) (nbits w : Nat) : State := { s with port := tableWord nbits w :: s.port }

end Sys2Proof.Machine
end

