-- ==== Sys2Proof/Machine/Reference.lean ====
section
/-! DEFINITION. What the laws of the spec are stated with, and no part of the block: the frame bits and the frame
word (spec/30_encoding.md R86, R87), the closed form of `K` (spec/41_encoder.md R152), the reference collapse
(spec/42_decoder.md R177), and a run of several operations. -/

namespace Sys2Proof.Machine

/-- The frame bit `b[g]` of a command (R86). -/
def frameBit (c : CommandModel) (g : Nat) : Bool :=
  if g < 26 then c.id.getLsbD g
  else if g = 26 then c.all
  else if g = 27 then directionBit c.state
  else !c.all && c.unit.getLsbD (g - 28)

/-- The frame word `FW`, whose bit `g` is `b[g]` (R87). -/
def frameWord (c : CommandModel) : BitArray := BitVec.ofFnLE fun g => frameBit c g.val

/-- The coefficient of a slot in closed form (R152). -/
def closedCoef (c : CommandModel) (i : Nat) : Coef :=
  if i = 0 then .one
  else if i = 1 then .startMult
  else if i = 130 then .one
  else if i = 131 then .pulseDiv
  else if (i - 2) % 4 = 1 then (if frameBit c ((i - 2) / 4) then .mult else .one)
  else if (i - 2) % 4 = 3 then (if frameBit c ((i - 2) / 4) then .one else .mult)
  else .one

/-- `K` after the seven passes for a command, from any `K` before (R140, R141 to R147). -/
def passCoefs (c : CommandModel) (k : Coefs) : Coefs :=
  footerCoefs (unitCoefs c.all c.unit (stateCoefs c.state (allCoefs c.all (idCoefs c.id
    (clearCoefs (startCoefs k))))))

/-- The duration of slot `i`, as a number. -/
def slotTime (t : Train) (i : Nat) : Nat := (t.getD i 0).toNat

/-- The four slots of group `g` hold `HIGH` at this base (R82, R177). -/
def isHigh (t : Train) (base g : Nat) : Bool :=
  slotTime t (2 + 4 * g) == base && slotTime t (3 + 4 * g) == 5 * base &&
    slotTime t (4 + 4 * g) == base && slotTime t (5 + 4 * g) == base

/-- The four slots of group `g` hold `LOW` at this base (R81, R177). -/
def isLow (t : Train) (base g : Nat) : Bool :=
  slotTime t (2 + 4 * g) == base && slotTime t (3 + 4 * g) == base &&
    slotTime t (4 + 4 * g) == base && slotTime t (5 + 4 * g) == 5 * base

/-- `COLLAPSE(T, base)`: a test device and no model of the demodulator (R177). -/
def collapse (t : Train) (base : Nat) : Option BitArray :=
  if (List.range 32).all (fun g => isHigh t base g || isLow t base g) then
    some (BitVec.ofFnLE fun g => isHigh t base g.val)
  else none

/-- The operations of a list, one after another, up to the first that stops. -/
def runAll : List Instr → State → Result
  | [], s => .next s
  | i :: rest, s =>
    match exec i s with
    | .next t => runAll rest t
    | .fault r => .fault r
    | .refused r => .refused r

/-- The rows of the opcode table that make up `ENCODE` and the message record, in order (R140, R191). -/
def createRows (sel : BitVec 2) : List Instr :=
  [.pStart, .pClear, .pId, .pAll, .pState, .pUnit, .pFooter, .pScale sel, .repeatCount, .mkmsg]

/-- The rows of the opcode table that make up `DECODE`, in order (spec/42_decoder.md R170). -/
def parseRows (bits : BitArray) : List Instr := [.xUnit bits, .xState bits, .xAll bits, .xId bits]

end Sys2Proof.Machine
end

