-- ==== Sys2Proof/Machine/Transmitter.lean ====
section
/-! DEFINITION. The block beside the agent that reads its train: spec/70_reset_and_hazards.md R247 says which
step a model with a transmitter gives it and what breaks the host's duty. What the transmitter does with a
duration is outside the block (spec/00_scope.md R7). `step` uses nothing of this file. Log entry 14. -/

namespace Sys2Proof.Machine

/-- The block and its transmitter: the slot the transmitter reads next while a reading is under way, and the
durations it has read, oldest first. -/
structure Station where
  block : State
  reading : Option Nat
  sent : List (BitVec 16)
  deriving DecidableEq, Repr

/-- An event of the station. -/
inductive StationEvent where
  /-- The host presents one word and the block runs it. -/
  | transact (w : PortWord)
  /-- The transmitter reads its next slot. -/
  | readNext
  /-- The block is reset (spec/70_reset_and_hazards.md R240). A reading under way ends, by the model's choice: the
  train is gone, and any operation may be the first after it (R243, log entry 20). -/
  | reset
  deriving DecidableEq, Repr

/-- The operations that replace or invalidate the train (R247); the second is an internal one. -/
def replacesTrain : Instr → Bool
  | .nop => false
  | .create _ _ => true
  | .parse _ => false
  | .validate _ => false
  | .pStart => false
  | .pClear => false
  | .pId => false
  | .pAll => false
  | .pState => false
  | .pUnit => false
  | .pFooter => false
  | .pScale _ => true
  | .repeatCount => false
  | .xId _ => false
  | .xAll _ => false
  | .xState _ => false
  | .xUnit _ => false
  | .mkmsg => false
  | .symLow _ => false
  | .symHigh _ => false
  | .symStart => false
  | .symTailFooter => false

/-- The word breaks the host's duty while a reading is under way (R66, R247, entry U9). -/
def breaksOwnership (t : Station) (w : PortWord) : Bool :=
  t.reading.isSome &&
    match decode w with
    | .ok i => replacesTrain i
    | .error _ => false

/-- The slot after `i` in transmission order, none after the last (spec/20_memory.md R54). -/
def nextSlot (i : Nat) : Option Nat := if i + 1 < 132 then some (i + 1) else none

/-- One event of the station. -/
def stationStep (e : StationEvent) (t : Station) : Host.Outcome Station Fault Refusal :=
  match e with
  | .transact w =>
    if breaksOwnership t w then .fault .createWhileReading
    else match step (t.block.takeWord [w]) with
      | .next s => .next { t with block := s }
      | .fault r => .fault r
      | .refused r => .refused r
  | .readNext =>
    match readSlot t.block (t.reading.getD 0) with
    | .ok v => .next { t with reading := nextSlot (t.reading.getD 0), sent := t.sent ++ [v] }
    | .error r => .fault r
  | .reset => .next { t with block := State.reset, reading := none }

/-- `n` reads of the transmitter, one after another. -/
def readSlots : Nat → Station → Host.Outcome Station Fault Refusal
  | 0, t => .next t
  | n + 1, t =>
    match stationStep .readNext t with
    | .next u => readSlots n u
    | .fault r => .fault r
    | .refused r => .refused r

end Sys2Proof.Machine
end

