-- ==== Sys2Proof/Safety.lean ====
section
/-! DEFINITION. What a sound state of the block is: the invariants of spec/10_state.md R21 to R26 and R35 in the
terms statements use. -/

namespace Sys2Proof.Machine

/-- Exactly one of the keys `unit` and `all` is present, each holds a value just where it is present, and the
number of `all` is 1 (R26, spec/43_host_ops.md R197). -/
def Message.wellFormed (m : Message) : Bool :=
  (m.hasUnit != m.hasAll) && (m.unit.isSome == m.hasUnit) && (m.all == if m.hasAll then some 1 else none)

/-- Every slot is a coefficient times one base of the four (R22, spec/20_memory.md R52). -/
def trainFormed (t : Train) : Prop :=
  ∃ sel : BitVec 2, ∀ i : Fin 132, ∃ c : Coef, t[i].toNat = c.value * Config.base sel

/-- The invariants of a validated CommandModel (R21). -/
def CommandModel.validated (c : CommandModel) : Bool :=
  decide (1 ≤ c.id.toNat) && !(c.all && c.learn) && (!c.all || decide (c.unit = 0))

/-- What every operation keeps, the internal ones too: a set validity flag says that its registers hold values,
`ERR` holds a failure code and `FAIL` says whether it is one, `PH` is a pass index, and a message record and a
train that are held are formed as R22 and R26 say. -/
structure State.Sound (s : State) : Prop where
  command_held : s.cmValid = true → s.cm.model?.isSome = true
  train_held : s.trainValid = s.train.isSome
  message_held : s.msgValid = true → s.msg.isSome = true
  err_is_code : s.err.toNat ≤ 4
  fail_is_err : s.fail = decide (s.err ≠ 0)
  ph_is_index : s.ph.toNat ≤ 6
  message_formed : ∀ m, s.msg = some m → m.wellFormed = true
  train_formed : ∀ t, s.train = some t → trainFormed t

/-- The train and the repeat count are those `ENCODE` makes of a validated command at one of the bases. -/
def encodedTrain (t : Train) (r : BitVec 6) : Prop :=
  ∃ (c : CommandModel) (sel : BitVec 2), c.validated = true ∧ r = repeatOf c.learn ∧
    ∀ i : Fin 132, t[i].toNat = (closedCoef c i.val).value * Config.base sel

/-- What holds between command words: every register holds a value exactly while its validity flag is 1, the
record is that of `CM`, no pass is under way, a failure leaves nothing valid, and a train is one a `CREATE` made. -/
structure State.Settled (s : State) : Prop where
  command_absent : s.cmValid = false → s.cm = CommandRegister.absent
  command_held : s.cmValid = true → ∃ c, s.cm = CommandRegister.holding c ∧ s.msg = some (messageOf c)
  message_flag : s.msgValid = s.cmValid
  message_absent : s.msgValid = false → s.msg = none
  train_absent : s.trainValid = false → s.train = none ∧ s.repeatCount = none
  train_held : s.trainValid = true → ∃ t r, s.train = some t ∧ s.repeatCount = some r ∧ encodedTrain t r
  failure_leaves_nothing : s.fail = true → s.cmValid = false ∧ s.trainValid = false
  err_is_code : s.err.toNat ≤ 4
  fail_is_err : s.fail = decide (s.err ≠ 0)
  between_passes : s.ph = 0

end Sys2Proof.Machine
end

