-- ==== Sys2Proof/Certificates/Slice0/Obligations.lean ====
section
/-! DEFINITION. The statements for the provers, from the numbered rules of spec/. A docstring names the rule a
statement formalises; a statement that rests on an inference the spec marks as derived, or on a choice of the
model, says so and names the section or the log entry. -/

open Sys2Proof Sys2Proof.Machine

/-! ### Reset, constants, and the port -/

/-- spec/10_state.md section 8 (reset is the spec's own decision D15): every validity flag, `FAIL`, `ERR` and
`PH` are 0, and `CM`, `TRAIN`, `REPEAT` and `MSG` hold no value. A reset puts the block there from any state
(spec/70_reset_and_hazards.md section 1) and, by the model's choice, ends a reading under way (log entry 20). -/
def Obligations.ResetHoldsNoValue : Prop :=
  State.reset.cmValid = false ∧ State.reset.trainValid = false ∧ State.reset.msgValid = false ∧
    State.reset.fail = false ∧ State.reset.err = 0 ∧ State.reset.ph = 0 ∧
    State.reset.train = none ∧ State.reset.repeatCount = none ∧ State.reset.msg = none ∧
    State.reset.cm = { id := none, unit := none, state := none, all := none, learn := none } ∧
    ∀ st : Station, stationStep .reset st = .next { st with block := State.reset, reading := none }

/-- R30: the host reads the ten descriptor constants, in every state the same. -/
def Obligations.DescriptorHoldsItsConstants : Prop :=
  ∀ s : State, readDescriptor s =
    { protocolId := "arctech_screen", deviceType := "screen", channelType := "RF433",
      presets := [315, 251, 294, 303], multiplier := 5, defaultTrainLength := 132, lsbMark := 3,
      firstLabel := Config.familyLabel 0, secondLabel := Config.familyLabel 1,
      layout := { idFirst := 0, idLast := 25, allBit := 26, stateBit := 27, unitFirst := 28, unitLast := 31 } }

/-- The model's port (log entry 2): a step takes the word at the head of the port and runs what it decodes to; with
no word at its port the block is idle (spec/70_reset_and_hazards.md section 1). -/
def Obligations.StepRunsTheDecodedOperation : Prop :=
  (∀ (s : State) (w : PortWord) (rest : List PortWord) (i : Instr),
    s.port = w :: rest → decode w = .ok i → step s = exec i { s with port := rest }) ∧
  (∀ s : State, s.port = [] → step s = .next s)

/-- R200 with the layout of R93: what a step does with each command word, the checks in the rule's order. A
refused word has no next state. -/
def Obligations.CommandWordsAreDispatchedInOrder : Prop :=
  ∀ (s : State) (cw : CommandWord) (rest : List PortWord),
    s.port = { format := .cw, bits := cw } :: rest →
    step s =
      if cw.extractLsb' 11 5 ≠ 0 then .refused (.rejectedWord .reservedBits)
      else if cw.extractLsb' 0 2 = 0b11 then .refused (.rejectedWord .reservedOp)
      else if cw.extractLsb' 0 2 = 0b00 then exec .nop { s with port := rest }
      else if cw.extractLsb' 0 2 = 0b10 then exec (.parse (cw.extractLsb' 16 32)) { s with port := rest }
      else if cw.getLsbD 8 = true ∧ cw.getLsbD 9 = true then .refused (.rejectedWord .upAndDown)
      else exec (.create (cw.extractLsb' 2 2)
        { idP := cw.getLsbD 4, idV := cw.extractLsb' 16 32, unitP := cw.getLsbD 5, unitV := cw.extractLsb' 48 32,
          allP := cw.getLsbD 6, allV := cw.getLsbD 7, upP := cw.getLsbD 8, downP := cw.getLsbD 9,
          learnP := cw.getLsbD 10 }) { s with port := rest }

/-- R95: bits an operation does not use make no difference: to `PARSE` and `NOP` everything outside `op`, the
reserved bits and, for `PARSE`, `CW[47:16]`; to `CREATE` a value whose presence bit is 0. -/
def Obligations.UnusedFieldsAreIgnored : Prop :=
  (∀ v w : CommandWord, v.extractLsb' 0 2 = 0b10 → w.extractLsb' 0 2 = 0b10 →
    v.extractLsb' 11 5 = w.extractLsb' 11 5 → v.extractLsb' 16 32 = w.extractLsb' 16 32 →
    decode { format := .cw, bits := v } = decode { format := .cw, bits := w }) ∧
  (∀ v w : CommandWord, v.extractLsb' 0 2 = 0b00 → w.extractLsb' 0 2 = 0b00 →
    v.extractLsb' 11 5 = w.extractLsb' 11 5 →
    decode { format := .cw, bits := v } = decode { format := .cw, bits := w }) ∧
  (∀ (sel : BitVec 2) (raw other : RawFields) (s : State),
    raw.idP = other.idP → raw.unitP = other.unitP → raw.allP = other.allP → raw.upP = other.upP →
    raw.downP = other.downP → raw.learnP = other.learnP →
    (raw.idP = true → raw.idV = other.idV) → (raw.unitP = true → raw.unitV = other.unitV) →
    (raw.allP = true → raw.allV = other.allV) →
    exec (.create sel raw) s = exec (.create sel other) s)

/-! ### Encoding -/

/-- Decoding the encoding of a well-formed operation gives it back. The layout of `CW` is R93's; the places of
the operands of the internal words are the model's (log entry 2). -/
def Obligations.DecodingAnEncodingGivesItBack : Prop :=
  ∀ i : Instr, i.wellFormed = true → decode (encode i) = .ok i

/-- What the decoder accepts is well-formed and of the word's own format, so a command word is never an internal
operation (spec/30_encoding.md section 5); and a word of the model's four internal formats has one meaning: it is accepted
only where it is the encoding of what it is read as, every other bit 0 (the model's layout, log entry 2). -/
def Obligations.AcceptedWordsAreWellFormed : Prop :=
  ∀ (w : PortWord) (i : Instr), decode w = .ok i →
    i.wellFormed = true ∧ i.format = w.format ∧ (w.format ≠ .cw → encode i = w)

/-- Words written out decode to what they stand for (sanity): command words of spec/95_test_vectors.md; and a pass index
and a class code of spec/opcode_table.json as words of the model's own PASS and SYM formats, where bits 13 to 8 of a SYM
word are the group (the model's layout, log entry 2). -/
def Obligations.WrittenWordsDecode : Prop :=
  decode { format := .cw, bits := 0x00000002000000050571 } = .ok (.create 0
    { idP := true, idV := 5, unitP := true, unitV := 2, allP := true, allV := false,
      upP := true, downP := false, learnP := true }) ∧
  decode { format := .cw, bits := 0x00000000380000050002 } = .ok (.parse 0x38000005) ∧
  decode { format := .pass, bits := 0b010 } = .ok .pId ∧
  decode { format := .sym, bits := 0b00010000 } = .ok (.symHigh 0) ∧
  decode { format := .cw, bits := 0x00000003000000050331 } = .error .upAndDown

/-- The class code of each coefficient and of the four frame elements, first slot first (spec/30_encoding.md section 3);
and these are the codes that the model's own SYM words carry (log entry 2), as the "encoding" column of
spec/opcode_table.json has them. The spec shows the code at no port. -/
def Obligations.SymbolWordsCarryTheirClassCodes : Prop :=
  (Coef.classCode .one = 0b00 ∧ Coef.classCode .mult = 0b01 ∧ Coef.classCode .startMult = 0b10 ∧
    Coef.classCode .pulseDiv = 0b11) ∧
  classCodes symbolLow = [0b00, 0b00, 0b00, 0b01] ∧ classCodes symbolHigh = [0b00, 0b01, 0b00, 0b00] ∧
  classCodes symbolStart = [0b00, 0b10] ∧ classCodes symbolTailFooter = [0b00, 0b11] ∧
  (∀ g : BitVec 6, (encode (.symLow g)).bits.extractLsb' 0 8 = 0b00000001) ∧
  (∀ g : BitVec 6, (encode (.symHigh g)).bits.extractLsb' 0 8 = 0b00010000) ∧
  (encode .symStart).bits.extractLsb' 0 4 = 0b0010 ∧ (encode .symTailFooter).bits.extractLsb' 0 4 = 0b0011

/-! ### Validation -/

/-- R121 to R127: `VALIDATE` reports exactly one outcome, the first failing check or the CommandModel, and changes
nothing else; the comparisons are on signed integers. The place of the report is the model's (log entry 6). -/
def Obligations.ValidateReportsFirstFailingCheck : Prop :=
  ∀ (raw : RawFields) (s : State), ¬ (raw.upP = true ∧ raw.downP = true) →
    ∃ v : Verdict, exec (.validate raw) s = .next { s with verdict := some v } ∧
      if (raw.allP = true ∧ raw.allV = true) ∧ raw.learnP = true then v = .failed .conflictingOptions
      else if raw.idP = false ∨ (raw.unitP = false ∧ ¬ (raw.allP = true ∧ raw.allV = true)) ∨
          (raw.upP = false ∧ raw.downP = false) then v = .failed .missingArguments
      else if raw.idV.toInt < 1 ∨ 67108863 < raw.idV.toInt then v = .failed .idOutOfRange
      else if ¬ (raw.allP = true ∧ raw.allV = true) ∧ (raw.unitV.toInt < 0 ∨ 15 < raw.unitV.toInt) then
        v = .failed .unitOutOfRange
      else ∃ c : CommandModel, v = .valid c ∧ (c.id.toNat : Int) = raw.idV.toInt ∧
        (c.all = true ↔ raw.allP = true ∧ raw.allV = true) ∧
        (c.unit.toNat : Int) = (if raw.allP = true ∧ raw.allV = true then 0 else raw.unitV.toInt) ∧
        c.state = (if raw.upP = true then .up else .down) ∧ c.learn = raw.learnP

/-- `up` and `down` together in a `CREATE` are refused, and are none of the four failures (spec/30_encoding.md section 5).
That `VALIDATE` run on its own refuses them too is the model's choice (log entry 8). -/
def Obligations.UpWithDownIsRefused : Prop :=
  ∀ (sel : BitVec 2) (raw : RawFields) (s : State), raw.upP = true → raw.downP = true →
    exec (.create sel raw) s = .refused (.rejectedWord .upAndDown) ∧
    exec (.validate raw) s = .refused (.rejectedWord .upAndDown)

/-- R125, last sentence, with R21: what validation produces meets the invariants of a validated command. -/
def Obligations.ValidatedCommandsMeetTheirInvariants : Prop :=
  ∀ (raw : RawFields) (c : CommandModel), validateFields raw = .valid c →
    1 ≤ c.id.toNat ∧ c.id.toNat ≤ 67108863 ∧ c.unit.toNat ≤ 15 ∧ ¬ (c.all = true ∧ c.learn = true) ∧
      (c.all = true → c.unit = 0)

/-! ### CREATE -/

/-- R193, R214, R215: a failed `CREATE` sets `FAIL` and the code of the kind, fires `LOG` once, leaves `TRAIN`,
`REPEAT`, `CM` and `MSG` without a value, writes no slot, and has no other effect: of the rest only `PH`, 0 at the start
of every `CREATE` (R29), and the model's own record of the outcome (log entry 6) may change. -/
def Obligations.FailedCreateTakesTheFailure : Prop :=
  ∀ (sel : BitVec 2) (raw : RawFields) (s : State) (k : FailKind),
    ¬ (raw.upP = true ∧ raw.downP = true) → validateFields raw = .failed k →
    ∃ v : Option Verdict, exec (.create sel raw) s = .next { s with
      verdict := v
      ph := 0
      fail := true
      err := (match k with
        | .conflictingOptions => 1
        | .missingArguments => 2
        | .idOutOfRange => 3
        | .unitOutOfRange => 4)
      log := s.log ++ [{ severity := .error, kind := k }]
      trainValid := false
      cmValid := false
      msgValid := false
      train := none
      repeatCount := none
      msg := none
      cm := { id := none, unit := none, state := none, all := none, learn := none } }

/-- R192 with R140: a successful `CREATE` writes the command, the train of the seven passes and the scaling, the
repeat count, the record and the flags; it fires no event, and every register is written. -/
def Obligations.SuccessfulCreateWritesEveryResult : Prop :=
  ∀ (sel : BitVec 2) (raw : RawFields) (s : State) (c : CommandModel),
    ¬ (raw.upP = true ∧ raw.downP = true) → validateFields raw = .valid c →
    ∃ (t : State) (train : Train), exec (.create sel raw) s = .next t ∧
      t.cm = { id := some c.id, unit := some c.unit, state := some c.state, all := some c.all,
               learn := some c.learn } ∧ t.cmValid = true ∧
      t.train = some train ∧ t.trainValid = true ∧
      (∀ (i : Nat) (h : i < 132), (train[i]).toNat = ((passCoefs c s.k)[i]).value * Config.base sel) ∧
      t.repeatCount = some (if c.learn = true then 40 else 10) ∧
      t.msg = some (messageOf c) ∧ t.msgValid = true ∧ t.fail = false ∧ t.err = 0 ∧
      t.log = s.log ∧ t.port = s.port

/-- `CREATE` is the rows of the opcode table run one after another (spec/43_host_ops.md section 3,
spec/41_encoder.md section 1): `VALIDATE`, then `CM` written, the seven passes, the scaling, the repeat count and
the record, then the flags. The rows read their operands in `CM`. -/
def Obligations.CreateIsItsRowsInOrder : Prop :=
  ∀ (sel : BitVec 2) (raw : RawFields) (s : State) (c : CommandModel),
    ¬ (raw.upP = true ∧ raw.downP = true) → validateFields raw = .valid c →
    ∃ u v : State, exec (.validate raw) s = .next u ∧
      runAll [.pStart, .pClear, .pId, .pAll, .pState, .pUnit, .pFooter, .pScale sel, .repeatCount, .mkmsg]
        { u with cm := CommandRegister.holding c, cmValid := true, ph := 0 } = .next v ∧
      exec (.create sel raw) s = .next { v with msgValid := true, fail := false, err := 0 }

/-- R33: no result register of a `CREATE` or a `PARSE` depends on the state the earlier transactions left. -/
def Obligations.ResultsForgetEarlierTransactions : Prop :=
  (∀ (sel : BitVec 2) (raw : RawFields) (s s' : State), ¬ (raw.upP = true ∧ raw.downP = true) →
    ∃ t t' : State, exec (.create sel raw) s = .next t ∧ exec (.create sel raw) s' = .next t' ∧
      t.cm = t'.cm ∧ t.cmValid = t'.cmValid ∧ t.train = t'.train ∧ t.trainValid = t'.trainValid ∧
      t.repeatCount = t'.repeatCount ∧ t.fail = t'.fail ∧ t.err = t'.err ∧ t.msg = t'.msg ∧
      t.msgValid = t'.msgValid) ∧
  (∀ (bits : BitArray) (s s' : State),
    ∃ t t' : State, exec (.parse bits) s = .next t ∧ exec (.parse bits) s' = .next t' ∧
      t.cm = t'.cm ∧ t.cmValid = t'.cmValid ∧ t.fail = t'.fail ∧ t.err = t'.err ∧ t.msg = t'.msg ∧
      t.msgValid = t'.msgValid)

/-- R213: whether and how a `CREATE` fails depends on its raw fields alone, on neither the base nor the state. -/
def Obligations.FailuresDependOnTheFieldsAlone : Prop :=
  ∀ (sel sel' : BitVec 2) (raw : RawFields) (s s' : State), ¬ (raw.upP = true ∧ raw.downP = true) →
    ∃ t t' : State, exec (.create sel raw) s = .next t ∧ exec (.create sel' raw) s' = .next t' ∧
      t.fail = t'.fail ∧ t.err = t'.err ∧
      (t.fail = true ↔ ∃ k : FailKind, validateFields raw = .failed k)

/-- R160: commands that differ in `learn` alone give the same train, and `learn` alone gives the repeat count. -/
def Obligations.LearnShowsInTheRepeatCountAlone : Prop :=
  ∀ (sel : BitVec 2) (raw : RawFields) (s : State) (c d : CommandModel),
    ¬ (raw.upP = true ∧ raw.downP = true) →
    validateFields { raw with learnP := true } = .valid c →
    validateFields { raw with learnP := false } = .valid d →
    ∃ t u : State, exec (.create sel { raw with learnP := true }) s = .next t ∧
      exec (.create sel { raw with learnP := false }) s = .next u ∧
      t.train = u.train ∧ t.train.isSome = true ∧ t.repeatCount = some 40 ∧ u.repeatCount = some 10

/-! ### The passes -/

/-- R141: `P_START` writes coefficients 1 and 9 in slots 0 and 1; nothing else changes but `PH`. -/
def Obligations.StartPassWritesTheMarker : Prop :=
  ∀ s : State, ∃ t : State, exec .pStart s = .next t ∧ t = { s with k := t.k, ph := t.ph } ∧
    ∀ (i : Nat) (h : i < 132), t.k[i] = if i = 0 then .one else if i = 1 then .startMult else s.k[i]

/-- R142: `P_CLEAR` makes all 32 groups `LOW`, leaves 1 in slots 130 and 131 and leaves slots 0 and 1; nothing
else changes but `PH`. -/
def Obligations.ClearPassMakesEveryGroupLow : Prop :=
  ∀ s : State, ∃ t : State, exec .pClear s = .next t ∧ t = { s with k := t.k, ph := t.ph } ∧
    (∀ g : Nat, ∀ h : g < 32, t.k[2 + 4 * g] = .one ∧ t.k[3 + 4 * g] = .one ∧ t.k[4 + 4 * g] = .one ∧
      t.k[5 + 4 * g] = .mult) ∧
    t.k[130] = .one ∧ t.k[131] = .one ∧ t.k[0] = s.k[0] ∧ t.k[1] = s.k[1]

/-- R143: `P_ID` puts `HIGH` in group `k` where bit `k` of `CM.id` is 1, and leaves every other slot; nothing else
changes but `PH`. -/
def Obligations.IdPassOverlaysItsSetBits : Prop :=
  ∀ (s : State) (id : BitVec 26), s.cm.id = some id →
    ∃ t : State, exec .pId s = .next t ∧ t = { s with k := t.k, ph := t.ph } ∧
      (∀ g : Nat, ∀ h : g < 26, id.getLsbD g = true →
        t.k[2 + 4 * g] = .one ∧ t.k[3 + 4 * g] = .mult ∧ t.k[4 + 4 * g] = .one ∧ t.k[5 + 4 * g] = .one) ∧
      (∀ (i : Nat) (h : i < 132), (i < 2 ∨ 106 ≤ i ∨ id.getLsbD ((i - 2) / 4) = false) → t.k[i] = s.k[i])

/-- R144 and R145: `P_ALL` and `P_STATE` put `HIGH` in slots 106 to 109 and 110 to 113 where `CM.all` is 1 and
`CM.state` is Up, and write nothing otherwise; nothing else changes but `PH`. -/
def Obligations.AllAndStatePassesOverlayTheirBit : Prop :=
  (∀ (s : State) (all : Bool), s.cm.all = some all →
    ∃ t : State, exec .pAll s = .next t ∧ t = { s with k := t.k, ph := t.ph } ∧
      ∀ (i : Nat) (h : i < 132), t.k[i] =
        if all = true ∧ 106 ≤ i ∧ i ≤ 109 then (if i = 107 then .mult else .one) else s.k[i]) ∧
  (∀ (s : State) (d : Direction), s.cm.state = some d →
    ∃ t : State, exec .pState s = .next t ∧ t = { s with k := t.k, ph := t.ph } ∧
      ∀ (i : Nat) (h : i < 132), t.k[i] =
        if d = .up ∧ 110 ≤ i ∧ i ≤ 113 then (if i = 111 then .mult else .one) else s.k[i])

/-- R146: `P_UNIT` puts `HIGH` in group `28 + k` where `CM.all` is 0 and bit `k` of `CM.unit` is 1, and writes
nothing where `CM.all` is 1, whatever `CM.unit` is; nothing else changes but `PH`. -/
def Obligations.UnitPassOverlaysOutsideAllMode : Prop :=
  (∀ (s : State) (unit : BitVec 4), s.cm.all = some false → s.cm.unit = some unit →
    ∃ t : State, exec .pUnit s = .next t ∧ t = { s with k := t.k, ph := t.ph } ∧
      (∀ g : Nat, ∀ h : g < 4, unit.getLsbD g = true →
        t.k[114 + 4 * g] = .one ∧ t.k[115 + 4 * g] = .mult ∧ t.k[116 + 4 * g] = .one ∧
          t.k[117 + 4 * g] = .one) ∧
      (∀ (i : Nat) (h : i < 132), (i < 114 ∨ 130 ≤ i ∨ unit.getLsbD ((i - 114) / 4) = false) →
        t.k[i] = s.k[i])) ∧
  (∀ s : State, s.cm.all = some true →
    ∃ t : State, exec .pUnit s = .next t ∧ t = { s with ph := t.ph })

/-- R147: `P_FOOTER` writes `PULSE_DIV` in slot 131 alone; nothing else changes but `PH`. -/
def Obligations.FooterPassWritesSlot131 : Prop :=
  ∀ s : State, ∃ t : State, exec .pFooter s = .next t ∧ t = { s with k := t.k, ph := t.ph } ∧
    ∀ (i : Nat) (h : i < 132), t.k[i] = if i = 131 then .pulseDiv else s.k[i]

/-- R148: `P_SCALE` writes every slot as coefficient times base, with no wrap at 16 bits, and sets `TRAIN_VALID`;
nothing else changes. -/
def Obligations.ScaleMultipliesEverySlot : Prop :=
  ∀ (s : State) (sel : BitVec 2), ∃ train : Train,
    exec (.pScale sel) s = .next { s with train := some train, trainValid := true } ∧
    ∀ (i : Nat) (h : i < 132), (train[i]).toNat =
      (match s.k[i] with
        | .one => 1
        | .mult => 5
        | .startMult => 9
        | .pulseDiv => Config.pulseDiv) *
      (if sel = 0 then 315 else if sel = 1 then 251 else if sel = 2 then 294 else 303)

/-- R149: the repeat-count step writes 40 where `CM.learn` is 1 and 10 where it is 0, and nothing else. -/
def Obligations.RepeatCountFollowsLearn : Prop :=
  ∀ (s : State) (learn : Bool), s.cm.learn = some learn →
    exec .repeatCount s = .next { s with repeatCount := some (if learn = true then 40 else 10) }

/-- The pass index (R29) as the model keeps it (log entry 5): every pass completes in every state, and after it the index
is that of the next pass, and 0 after the seventh. -/
def Obligations.PassIndexCountsThePasses : Prop :=
  ∀ s : State,
    (∃ t : State, exec .pStart s = .next t ∧ t.ph = 1) ∧ (∃ t : State, exec .pClear s = .next t ∧ t.ph = 2) ∧
    (∃ t : State, exec .pId s = .next t ∧ t.ph = 3) ∧ (∃ t : State, exec .pAll s = .next t ∧ t.ph = 4) ∧
    (∃ t : State, exec .pState s = .next t ∧ t.ph = 5) ∧ (∃ t : State, exec .pUnit s = .next t ∧ t.ph = 6) ∧
    (∃ t : State, exec .pFooter s = .next t ∧ t.ph = 0)

/-- A step that reads `CM` completes in every state. Where `CM` holds no value it does what it does for some command that
agrees with the fields `CM` holds, which command is left open, and `CM` stays as it is (the model's free values, log entry
7; spec/41_encoder.md section 1: no pass has a precondition on the values). -/
def Obligations.StepsThatReadTheCommandAlwaysRun : Prop :=
  ∀ (s : State) (i : Instr), i ∈ [.pId, .pAll, .pState, .pUnit, .repeatCount, .mkmsg] →
    ∃ (c : CommandModel) (n : Nat) (t : State),
      (∀ id : BitVec 26, s.cm.id = some id → c.id = id) ∧ (∀ unit : BitVec 4, s.cm.unit = some unit → c.unit = unit) ∧
      (∀ d : Direction, s.cm.state = some d → c.state = d) ∧ (∀ all : Bool, s.cm.all = some all → c.all = all) ∧
      (∀ learn : Bool, s.cm.learn = some learn → c.learn = learn) ∧
      exec i { s with cm := { id := some c.id, unit := some c.unit, state := some c.state, all := some c.all,
                              learn := some c.learn } } = .next t ∧
      exec i s = .next { t with cm := s.cm, unheldReads := n }

/-! ### The frame -/

/-- R81, R82 and R84, with R57 for the overhanging group: a symbol fills its slots, a write past slot 131 is
dropped, and nothing else changes. -/
def Obligations.SymbolsFillTheirSlots : Prop :=
  ∀ (s : State) (g : BitVec 6),
    (∃ t : State, exec (.symLow g) s = .next t ∧ t = { s with k := t.k } ∧
      ∀ (i : Nat) (h : i < 132), t.k[i] =
        if i = 2 + 4 * g.toNat ∨ i = 3 + 4 * g.toNat ∨ i = 4 + 4 * g.toNat then .one
        else if i = 5 + 4 * g.toNat then .mult else s.k[i]) ∧
    (∃ t : State, exec (.symHigh g) s = .next t ∧ t = { s with k := t.k } ∧
      ∀ (i : Nat) (h : i < 132), t.k[i] =
        if i = 2 + 4 * g.toNat ∨ i = 4 + 4 * g.toNat ∨ i = 5 + 4 * g.toNat then .one
        else if i = 3 + 4 * g.toNat then .mult else s.k[i]) ∧
    (∃ t : State, exec .symStart s = .next t ∧ t = { s with k := t.k } ∧
      ∀ (i : Nat) (h : i < 132), t.k[i] = if i = 0 then .one else if i = 1 then .startMult else s.k[i])

/-- The tail and the footer (spec/30_encoding.md section 1.2): coefficient 1 in slot 130 and `PULSE_DIV` in slot
131, and nothing else changes. -/
def Obligations.TailAndFooterFillTheLastSlots : Prop :=
  ∀ s : State, ∃ t : State, exec .symTailFooter s = .next t ∧ t = { s with k := t.k } ∧
    ∀ (i : Nat) (h : i < 132), t.k[i] = if i = 130 then .one else if i = 131 then .pulseDiv else s.k[i]

/-- The seven passes give the closed form, whatever `K` held before (spec/41_encoder.md section 4). -/
def Obligations.PassesGiveTheClosedForm : Prop :=
  ∀ (c : CommandModel) (k : Coefs) (i : Nat) (h : i < 132), (passCoefs c k)[i] = closedCoef c i

/-- The passes other than `P_CLEAR` commute with one another, and `P_CLEAR` commutes with `P_START`
(spec/41_encoder.md section 4). -/
def Obligations.DisjointPassesCommute : Prop :=
  ∀ (c : CommandModel) (k : Coefs),
    (∀ p q : Coefs → Coefs,
      p ∈ [startCoefs, idCoefs c.id, allCoefs c.all, stateCoefs c.state, unitCoefs c.all c.unit, footerCoefs] →
      q ∈ [startCoefs, idCoefs c.id, allCoefs c.all, stateCoefs c.state, unitCoefs c.all c.unit, footerCoefs] →
      p (q k) = q (p k)) ∧
    clearCoefs (startCoefs k) = startCoefs (clearCoefs k)

/-- Property 6 of the source (spec/41_encoder.md section 4): the fixed slots of every produced train. -/
def Obligations.ProducedTrainsHaveTheFixedFrame : Prop :=
  ∀ (sel : BitVec 2) (raw : RawFields) (s : State) (c : CommandModel),
    ¬ (raw.upP = true ∧ raw.downP = true) → validateFields raw = .valid c →
    ∃ (t : State) (train : Train), exec (.create sel raw) s = .next t ∧ t.train = some train ∧
      (train[0]).toNat = Config.base sel ∧ (train[1]).toNat = 9 * Config.base sel ∧
      (train[130]).toNat = Config.base sel ∧ (train[131]).toNat = Config.pulseDiv * Config.base sel

/-- Property 7 of the source (spec/41_encoder.md section 4): every group of a produced train holds `HIGH` or `LOW`
by its frame bit. -/
def Obligations.ProducedGroupsFollowTheirBit : Prop :=
  ∀ (sel : BitVec 2) (raw : RawFields) (s : State) (c : CommandModel),
    ¬ (raw.upP = true ∧ raw.downP = true) → validateFields raw = .valid c →
    ∃ (t : State) (train : Train), exec (.create sel raw) s = .next t ∧ t.train = some train ∧
      ∀ g : Nat, ∀ h : g < 32,
        (train[2 + 4 * g]).toNat = Config.base sel ∧ (train[4 + 4 * g]).toNat = Config.base sel ∧
        (train[3 + 4 * g]).toNat = (if frameBit c g = true then 5 * Config.base sel else Config.base sel) ∧
        (train[5 + 4 * g]).toNat = (if frameBit c g = true then Config.base sel else 5 * Config.base sel)

/-- The total duration of a produced train is `(267 + PULSE_DIV) * base` for every command (spec/41_encoder.md
section 4). -/
def Obligations.EveryTrainTakesTheSameTime : Prop :=
  ∀ (sel : BitVec 2) (raw : RawFields) (s : State) (c : CommandModel),
    ¬ (raw.upP = true ∧ raw.downP = true) → validateFields raw = .valid c →
    ∃ (t : State) (train : Train), exec (.create sel raw) s = .next t ∧ t.train = some train ∧
      (train.toList.map BitVec.toNat).sum = (267 + Config.pulseDiv) * Config.base sel

/-- The frame word in arithmetic (spec/30_encoding.md section 1.3). -/
def Obligations.FrameWordIsTheSumOfItsFields : Prop :=
  ∀ c : CommandModel, (frameWord c).toNat =
    c.id.toNat + (if c.all = true then 2 ^ 26 else 0) + (if c.state = .up then 2 ^ 27 else 0) +
      (if c.all = true then 0 else c.unit.toNat) * 2 ^ 28

/-- Two commands give the same train at the same base just where they have the same frame word: the same `id`, `all`
and `state`, and the same `unit` outside all-devices mode (spec/41_encoder.md section 4). -/
def Obligations.TrainsDistinguishFrameWords : Prop :=
  ∀ (sel : BitVec 2) (c d : CommandModel) (k k' : Coefs),
    (scaleCoefs (Config.base sel) (passCoefs c k) = scaleCoefs (Config.base sel) (passCoefs d k') ↔
      frameWord c = frameWord d) ∧
    (frameWord c = frameWord d ↔
      c.id = d.id ∧ c.all = d.all ∧ c.state = d.state ∧ (c.all = true ∨ c.unit = d.unit))

/-! ### The decoder and the record -/

/-- R172: `X_ID` writes `CM.id` as the sum of its bits with weight `2^k` at entry `k`, and nothing else. -/
def Obligations.IdExtractionSumsItsBits : Prop :=
  ∀ (bits : BitArray) (s : State), ∃ id : BitVec 26,
    exec (.xId bits) s = .next { s with cm := { s.cm with id := some id } } ∧
    id.toNat = ∑ k ∈ Finset.range 26, (if bits.getLsbD k = true then 2 ^ k else 0)

/-- R175: `X_UNIT` writes `CM.unit` as the sum of its bits with weight `2^k` at entry `28 + k`, whatever entry 26
is, and nothing else. -/
def Obligations.UnitExtractionSumsItsBits : Prop :=
  ∀ (bits : BitArray) (s : State), ∃ unit : BitVec 4,
    exec (.xUnit bits) s = .next { s with cm := { s.cm with unit := some unit } } ∧
    unit.toNat = ∑ k ∈ Finset.range 4, (if bits.getLsbD (28 + k) = true then 2 ^ k else 0)

/-- R173 and R174: `X_ALL` and `X_STATE` write their field from entry 26 and entry 27, and nothing else. -/
def Obligations.SingleBitExtractions : Prop :=
  ∀ (bits : BitArray) (s : State),
    exec (.xAll bits) s = .next { s with cm := { s.cm with all := some (bits.getLsbD 26) } } ∧
    exec (.xState bits) s =
      .next { s with cm := { s.cm with state := some (if bits.getLsbD 27 = true then .up else .down) } }

/-- R194: `PARSE` writes `CM`, the record and the flags from the 32 bits, never fails, and leaves `TRAIN`,
`TRAIN_VALID`, `REPEAT` and everything else. -/
def Obligations.ParseWritesTheDecodedCommand : Prop :=
  ∀ (bits : BitArray) (s : State), ∃ c : CommandModel,
    exec (.parse bits) s = .next { s with
      cm := { id := some c.id, unit := some c.unit, state := some c.state, all := some c.all, learn := some c.learn },
      cmValid := true, msg := some (messageOf c), msgValid := true, fail := false, err := 0 } ∧
    c.id = bits.extractLsb' 0 26 ∧ c.all = bits.getLsbD 26 ∧
    c.state = (if bits.getLsbD 27 = true then .up else .down) ∧ c.unit = bits.extractLsb' 28 4 ∧ c.learn = false

/-- `PARSE` is the four extraction rows in order, `CM.learn <- 0`, the record row and the flags (spec/42_decoder.md
section 1, spec/43_host_ops.md section 4). -/
def Obligations.ParseIsItsRowsInOrder : Prop :=
  ∀ (bits : BitArray) (s : State), ∃ u v : State,
    runAll [.xUnit bits, .xState bits, .xAll bits, .xId bits] s = .next u ∧
    exec .mkmsg { u with cm := { u.cm with learn := some false }, cmValid := true } = .next v ∧
    exec (.parse bits) s = .next { v with msgValid := true, fail := false, err := 0 }

/-- The decoder is a bijection between bit arrays and commands with `learn = 0` (spec/42_decoder.md section 2). -/
def Obligations.DecodingIsABijection : Prop :=
  ∀ c : CommandModel, c.learn = false → ∃! bits : BitArray, decodeBitArray bits = c

/-- R197: `MKMSG` writes the record of the command in `CM` and nothing else: `all` with the number 1 and no `unit` in
all-devices mode, `unit` and no `all` otherwise. -/
def Obligations.MessageRecordFollowsTheCommand : Prop :=
  (∀ (s : State) (id : BitVec 26) (unit : BitVec 4) (d : Direction),
    s.cm.id = some id → s.cm.all = some false → s.cm.state = some d → s.cm.unit = some unit →
    exec .mkmsg s = .next { s with
      msg := some { id := id, hasUnit := true, unit := some unit, hasAll := false, all := none, state := d } }) ∧
  (∀ (s : State) (id : BitVec 26) (d : Direction),
    s.cm.id = some id → s.cm.all = some true → s.cm.state = some d →
    exec .mkmsg s = .next { s with
      msg := some { id := id, hasUnit := false, unit := none, hasAll := true, all := some 1, state := d } })

/-! ### Round trips -/

/-- Property 1 of the source (spec/42_decoder.md section 4): parsing the collapse of the train of a unit-addressed
command gives back its `id`, `unit` and `state`, with `all = 0`. -/
def Obligations.UnitCommandsSurviveTheRoundTrip : Prop :=
  ∀ (sel : BitVec 2) (raw : RawFields) (s : State) (c : CommandModel),
    ¬ (raw.upP = true ∧ raw.downP = true) → validateFields raw = .valid c → c.all = false →
    ∃ (t u : State) (train : Train) (bits : BitArray), exec (.create sel raw) s = .next t ∧
      t.train = some train ∧ collapse train (Config.base sel) = some bits ∧
      exec (.parse bits) t = .next u ∧
      u.cm = { id := some c.id, unit := some c.unit, state := some c.state, all := some false,
               learn := some false }

/-- Property 2 of the source (spec/42_decoder.md section 4): parsing the collapse of the train of an all-devices
command gives `all = 1`, `unit = 0` and the `id` and `state` of the command. -/
def Obligations.AllCommandsDecodeWithUnitZero : Prop :=
  ∀ (sel : BitVec 2) (raw : RawFields) (s : State) (c : CommandModel),
    ¬ (raw.upP = true ∧ raw.downP = true) → validateFields raw = .valid c →
    raw.allP = true → raw.allV = true →
    ∃ (t u : State) (train : Train) (bits : BitArray), exec (.create sel raw) s = .next t ∧
      t.train = some train ∧ collapse train (Config.base sel) = some bits ∧
      exec (.parse bits) t = .next u ∧
      u.cm = { id := some c.id, unit := some 0, state := some c.state, all := some true, learn := some false }

/-- The record after parsing the collapse of a created train is the record after the `CREATE` (spec/43_host_ops.md
section 4). -/
def Obligations.ParsedRecordIsTheCreatedRecord : Prop :=
  ∀ (sel : BitVec 2) (raw : RawFields) (s : State) (c : CommandModel),
    ¬ (raw.upP = true ∧ raw.downP = true) → validateFields raw = .valid c →
    ∃ (t u : State) (train : Train) (bits : BitArray), exec (.create sel raw) s = .next t ∧
      t.train = some train ∧ collapse train (Config.base sel) = some bits ∧
      exec (.parse bits) t = .next u ∧ u.msg = t.msg ∧ u.msg.isSome = true

/-- The converse trip (spec/42_decoder.md section 4): encoding a decoded bit array and collapsing the train gives the
array back, but for the four unit bits, which are cleared where entry 26 is 1. -/
def Obligations.ReencodingClearsTheUnitInAllMode : Prop :=
  ∀ (sel : BitVec 2) (bits : BitArray) (k : Coefs),
    collapse (scaleCoefs (Config.base sel) (passCoefs (decodeBitArray bits) k)) (Config.base sel) =
      some (if bits.getLsbD 26 = true then bits &&& 0x0FFFFFFF else bits)

/-! ### Readers, events and the whole machine -/

/-- R190: `NOP` changes nothing. -/
def Obligations.NopChangesNothing : Prop :=
  ∀ s : State, exec .nop s = .next s

/-- A read of `TRAIN`, `REPEAT`, `CM` or `MSG` at the ports while its validity flag is 0 is a fault of the reader
(spec/10_state.md section 7). That an index of 132 or above gets the same fault then is the model's choice (log entry
18). -/
def Obligations.ReadingNoValueIsAFault : Prop :=
  ∀ s : State,
    (s.trainValid = false → (∀ i : Nat, readSlot s i = .error (.noValue .train)) ∧
      readRepeat s = .error (.noValue .repeatCount)) ∧
    (s.cmValid = false → readCommand s = .error (.noValue .command)) ∧
    (s.msgValid = false → readMessage s = .error (.noValue .message))

/-- Between command words every register whose flag is 1 can be read (spec/70_reset_and_hazards.md section 2,
spec/20_memory.md section 4). -/
def Obligations.ValidRegistersCanBeRead : Prop :=
  ∀ s : State, s.Settled →
    (s.trainValid = true → (∀ i : Nat, i < 132 → ∃ v : BitVec 16, readSlot s i = .ok v ∧ 0 < v.toNat) ∧
      (readRepeat s = .ok 40 ∨ readRepeat s = .ok 10)) ∧
    (s.cmValid = true → ∃ c : CommandModel, readCommand s = .ok c ∧ readMessage s = .ok (messageOf c))

/-- R53: the first 32 entries of a bit buffer are its bits, whatever follows, and a shorter buffer is refused. -/
def Obligations.BufferGivesItsFirst32Bits : Prop :=
  ∀ buffer : List Bool,
    (buffer.length < 32 → bitsOfBuffer buffer = .error (.shortBuffer buffer.length)) ∧
    (32 ≤ buffer.length → ∃ bits : BitArray, bitsOfBuffer buffer = .ok bits ∧
      ∀ j : Nat, j < 32 → buffer[j]? = some (bits.getLsbD j))

/-- R37: an operation fires `LOG(Error, k)` once where it is a `CREATE` that fails with `k`, and fires nothing
otherwise. -/
def Obligations.OnlyFailedCreatesFireTheLog : Prop :=
  ∀ (i : Instr) (s t : State), exec i s = .next t →
    (∀ (sel : BitVec 2) (raw : RawFields) (k : FailKind), i = .create sel raw → validateFields raw = .failed k →
      t.log = s.log ++ [{ severity := .error, kind := k }]) ∧
    ((∀ (sel : BitVec 2) (raw : RawFields) (k : FailKind), i = .create sel raw → validateFields raw ≠ .failed k) →
      t.log = s.log)

/-- Ownership of the train (spec/20_memory.md section 4, spec/70_reset_and_hazards.md section 3): only a `CREATE`, or
its scaling step run on its own (log entry 2), writes `TRAIN` and `TRAIN_VALID`, and only a `CREATE` or its
repeat-count step writes `REPEAT`. -/
def Obligations.OnlyCreateWritesTheTrain : Prop :=
  ∀ (i : Instr) (s t : State), exec i s = .next t →
    (∀ (sel : BitVec 2) (raw : RawFields), i ≠ .create sel raw) →
    ((∀ sel : BitVec 2, i ≠ .pScale sel) → t.train = s.train ∧ t.trainValid = s.trainValid) ∧
    (i ≠ .repeatCount → t.repeatCount = s.repeatCount)

/-- No step of the block faults, in any state and on any word (spec/60_exceptions.md sections 1 and 5; for the internal words
with log entries 2 and 7): it answers a next state or the word is refused. -/
def Obligations.NoStepFaults : Prop :=
  ∀ (s : State) (r : Fault), step s ≠ .fault r

/-- Every step, of a command word or an internal word, keeps a sound state sound (spec/10_state.md sections 2 and 5). -/
def Obligations.EveryStepKeepsSoundness : Prop :=
  ∀ s t : State, s.Sound → step s = .next t → t.Sound

/-- Every step on a command word, and every idle step, keeps a settled state settled (spec/10_state.md sections 2, 5
and 7, spec/43_host_ops.md section 6). -/
def Obligations.CommandWordsKeepTheBlockSettled : Prop :=
  ∀ s t : State, s.Settled → (∀ w ∈ s.port, w.format = .cw) → step s = .next t →
    t.Settled ∧ ∀ w ∈ t.port, w.format = .cw

/-- The state after reset is sound and settled, and no word stands at its port. -/
def Obligations.ResetIsSoundAndSettled : Prop :=
  State.reset.Sound ∧ State.reset.Settled ∧ State.reset.port = []

/-- With a valid train and no reading under way, 132 reads of the transmitter send the slots in slot order and change
nothing of the block (spec/20_memory.md sections 2 and 4). The station is the model's (log entry 14). -/
def Obligations.TransmitterReadsTheWholeTrainInOrder : Prop :=
  ∀ (st : Station) (train : Train), st.block.trainValid = true → st.block.train = some train → st.reading = none →
    readSlots 132 st = .next { st with sent := st.sent ++ train.toList }

/-- R247: the transmitter's read is enabled only while `TRAIN_VALID` is 1; between its first and its last read a
`CREATE` is a fault of the host, and `PARSE` and `NOP` run as ever and leave what is read; with no reading under way
the station runs every word as the block alone does. -/
def Obligations.CreateWhileReadingIsAFault : Prop :=
  (∀ st : Station, st.block.trainValid = false → stationStep .readNext st = .fault (.noValue .train)) ∧
  (∀ (st : Station) (w : PortWord) (sel : BitVec 2) (raw : RawFields), st.reading.isSome = true →
    decode w = .ok (.create sel raw) → stationStep (.transact w) st = .fault .createWhileReading) ∧
  (∀ (st : Station) (w : PortWord), st.reading.isSome = true →
    (decode w = .ok .nop ∨ ∃ bits : BitArray, decode w = .ok (.parse bits)) →
    ∃ b : State, stationStep (.transact w) st = .next { st with block := b } ∧ b.train = st.block.train ∧
      b.trainValid = st.block.trainValid ∧ b.repeatCount = st.block.repeatCount) ∧
  (∀ (st : Station) (w : PortWord) (b : State), st.reading = none → step { st.block with port := [w] } = .next b →
    stationStep (.transact w) st = .next { st with block := b })
end

