-- ==== Sys2Proof/Laws/Decode.lean ====
section
/-! SUPPORT. What the fields of an assembled word read as, said once for each layout. -/

namespace Sys2Proof

/-- A bit of two joined words, where the joined width is given by its number. -/
theorem getLsbD_join {n m w : Nat} (x : BitVec n) (y : BitVec m) (v : BitVec w) (hw : n + m = w)
    (hv : (x ++ y).cast hw = v) (i : Nat) :
    v.getLsbD i = if i < m then y.getLsbD i else x.getLsbD (i - m) := by
  subst hw
  subst hv
  simp [BitVec.getLsbD_append]

/-- The bits of an assembled `CREATE` or STEP word, by its three parts. -/
theorem packFields_getLsbD (code sel : BitVec 2) (raw : RawFields) (i : Nat) :
    (packFields code sel raw).getLsbD i =
      if i < 16 then (packHeader code sel raw).getLsbD i
      else if i < 48 then raw.idV.getLsbD (i - 16) else raw.unitV.getLsbD (i - 48) := by
  rw [getLsbD_join (raw.unitV ++ raw.idV) (packHeader code sel raw) (packFields code sel raw) rfl rfl]
  by_cases h : i < 16
  · simp [h]
  · rw [if_neg h, if_neg h, BitVec.getLsbD_append, Nat.sub_sub]
    by_cases h2 : i < 48
    · rw [if_pos h2, if_pos (by omega)]
    · rw [if_neg h2, if_neg (by omega)]

/-- The header's fields read back, and its reserved bits are 0. -/
theorem packHeader_fields (code sel : BitVec 2) (raw : RawFields) :
    (packHeader code sel raw).extractLsb' 0 2 = code ∧ (packHeader code sel raw).extractLsb' 2 2 = sel ∧
    (packHeader code sel raw).extractLsb' 11 5 = 0 ∧
    (packHeader code sel raw).getLsbD 4 = raw.idP ∧ (packHeader code sel raw).getLsbD 5 = raw.unitP ∧
    (packHeader code sel raw).getLsbD 6 = raw.allP ∧ (packHeader code sel raw).getLsbD 7 = raw.allV ∧
    (packHeader code sel raw).getLsbD 8 = raw.upP ∧ (packHeader code sel raw).getLsbD 9 = raw.downP ∧
    (packHeader code sel raw).getLsbD 10 = raw.learnP := by
  obtain ⟨a, b, c, d, e, f, g, h, i⟩ := raw
  unfold packHeader
  simp only
  revert code sel a c e f g h i
  decide +kernel

/-- A field of the low 16 bits of an assembled word is that field of the header. -/
theorem packFields_extract_low (code sel : BitVec 2) (raw : RawFields) (start len : Nat) (h : start + len ≤ 16) :
    (packFields code sel raw).extractLsb' start len = (packHeader code sel raw).extractLsb' start len := by
  apply BitVec.eq_of_getLsbD_eq
  intro i hi
  have : start + i < 16 := by omega
  simp [packFields_getLsbD, hi, this]

theorem packFields_code (code sel : BitVec 2) (raw : RawFields) : opField (packFields code sel raw) = code := by
  rw [opField, packFields_extract_low _ _ _ _ _ (by omega)]
  exact (packHeader_fields code sel raw).1

theorem packFields_baseSel (code sel : BitVec 2) (raw : RawFields) :
    baseSelField (packFields code sel raw) = sel := by
  rw [baseSelField, packFields_extract_low _ _ _ _ _ (by omega)]
  exact (packHeader_fields code sel raw).2.1

theorem packFields_reserved (code sel : BitVec 2) (raw : RawFields) :
    reservedField (packFields code sel raw) = 0 := by
  rw [reservedField, packFields_extract_low _ _ _ _ _ (by omega)]
  exact (packHeader_fields code sel raw).2.2.1

theorem packFields_raw (code sel : BitVec 2) (raw : RawFields) : rawField (packFields code sel raw) = raw := by
  obtain ⟨-, -, -, h4, h5, h6, h7, h8, h9, h10⟩ := packHeader_fields code sel raw
  have hid : (packFields code sel raw).extractLsb' 16 32 = raw.idV := by
    apply BitVec.eq_of_getLsbD_eq
    intro i hi
    have h1 : ¬ 16 + i < 16 := by omega
    have h2 : 16 + i < 48 := by omega
    have h3 : 16 + i - 16 = i := by omega
    simp only [BitVec.getLsbD_extractLsb', packFields_getLsbD, hi, decide_true, Bool.true_and, if_neg h1, if_pos h2, h3]
  have hunit : (packFields code sel raw).extractLsb' 48 32 = raw.unitV := by
    apply BitVec.eq_of_getLsbD_eq
    intro i hi
    have h1 : ¬ 48 + i < 16 := by omega
    have h2 : ¬ 48 + i < 48 := by omega
    have h3 : 48 + i - 48 = i := by omega
    simp only [BitVec.getLsbD_extractLsb', packFields_getLsbD, hi, decide_true, Bool.true_and, if_neg h1, if_neg h2, h3]
  cases raw
  simp only [rawField, hid, hunit, packFields_getLsbD]
  simp only [Nat.reduceLT, if_true]
  rw [h4, h5, h6, h7, h8, h9, h10]

/-- The fields of an assembled BITS32 word. -/
theorem packBits_fields (row : BitVec 2) (bits : BitArray) :
    (packBits row bits).bits.extractLsb' 34 46 = 0 ∧ (packBits row bits).bits.extractLsb' 32 2 = row ∧
    (packBits row bits).bits.extractLsb' 0 32 = bits := by
  have key : ∀ i, (packBits row bits).bits.getLsbD i =
      if i < 32 then bits.getLsbD i else (0#46 ++ row).getLsbD (i - 32) :=
    getLsbD_join (0#46 ++ row) bits _ rfl rfl
  refine ⟨?_, ?_, ?_⟩ <;> apply BitVec.eq_of_getLsbD_eq <;> intro i hi <;>
    rw [BitVec.getLsbD_extractLsb', key]
  · rw [if_neg (by omega), BitVec.getLsbD_append, if_neg (by omega)]; simp
  · rw [if_neg (by omega), BitVec.getLsbD_append, if_pos (by omega), Nat.add_sub_cancel_left]; simp [hi]
  · rw [if_pos (by omega), Nat.zero_add]; simp [hi]

/-- The fields of an assembled SYM word. -/
theorem packSymbol_fields (group : BitVec 6) (code : BitVec 8) :
    (packSymbol group code).bits.extractLsb' 14 66 = 0 ∧ (packSymbol group code).bits.extractLsb' 8 6 = group ∧
    (packSymbol group code).bits.extractLsb' 0 8 = code := by
  have key : ∀ i, (packSymbol group code).bits.getLsbD i =
      if i < 8 then code.getLsbD i else (0#66 ++ group).getLsbD (i - 8) :=
    getLsbD_join (0#66 ++ group) code _ rfl rfl
  refine ⟨?_, ?_, ?_⟩ <;> apply BitVec.eq_of_getLsbD_eq <;> intro i hi <;>
    rw [BitVec.getLsbD_extractLsb', key]
  · rw [if_neg (by omega), BitVec.getLsbD_append, if_neg (by omega)]; simp
  · rw [if_neg (by omega), BitVec.getLsbD_append, if_pos (by omega), Nat.add_sub_cancel_left]; simp [hi]
  · rw [if_pos (by omega), Nat.zero_add]; simp [hi]

/-- The fields of an assembled `PARSE`. -/
theorem encode_parse_fields (bits : BitArray) :
    opField (encode (.parse bits)).bits = 2 ∧ reservedField (encode (.parse bits)).bits = 0 ∧
    bitsField (encode (.parse bits)).bits = bits := by
  have key : ∀ i, (encode (.parse bits)).bits.getLsbD i =
      if i < 2 then (2#2).getLsbD i else (0#32 ++ bits ++ 0#14).getLsbD (i - 2) :=
    getLsbD_join (0#32 ++ bits ++ 0#14) (2#2) _ rfl rfl
  refine ⟨?_, ?_, ?_⟩ <;> apply BitVec.eq_of_getLsbD_eq <;> intro i hi
  · rw [opField, BitVec.getLsbD_extractLsb', key, if_pos (by omega), Nat.zero_add]; simp [hi]
  · rw [reservedField, BitVec.getLsbD_extractLsb', key, if_neg (by omega), BitVec.getLsbD_append,
      if_pos (by omega)]
    simp
  · rw [bitsField, BitVec.getLsbD_extractLsb', key, if_neg (by omega), BitVec.getLsbD_append, if_neg (by omega),
      BitVec.getLsbD_append, if_pos (by omega), show 16 + i - 2 - 14 = i by omega]
    simp [hi]

end Sys2Proof
end

