-- ==== Sys2Proof/Laws/Slots.lean ====
section
/-! SUPPORT. What each write of the slot space does to each slot, said once: `put`, the overlays, the passes and
the scaling. -/

namespace Sys2Proof.Machine

/-- A write leaves every slot before its first and after its last as it was, and the array's length is fixed. -/
theorem put_get (k : Coefs) (slot : Nat) (p : List Coef) (i : Nat) (h : i < 132) :
    (put k slot p)[i] = if slot ≤ i then (p[i - slot]?).getD k[i] else k[i] := by
  induction p generalizing k slot with
  | nil => simp [put]
  | cons c rest ih =>
    simp only [put, ih, Vector.getElem_setIfInBounds]
    rcases Nat.lt_trichotomy i slot with hlt | rfl | hgt
    · have h1 : ¬ slot + 1 ≤ i := by omega
      have h2 : ¬ slot ≤ i := by omega
      have h3 : slot ≠ i := by omega
      simp [h1, h2, h3]
    · have h1 : ¬ i + 1 ≤ i := by omega
      simp [h1]
    · have h1 : slot + 1 ≤ i := by omega
      have h2 : slot ≤ i := by omega
      have h3 : slot ≠ i := by omega
      have h4 : i - slot = (i - (slot + 1)) + 1 := by omega
      simp [h1, h2, h3, h4]

/-- `put` drops the writes past the last slot (spec/20_memory.md R57). -/
theorem put_outside (k : Coefs) (slot : Nat) (p : List Coef) (h : 132 ≤ slot) : put k slot p = k := by
  ext i hi
  rw [put_get, if_neg (by omega)]

/-- The slots of `HIGH`: the long pulse at offset 1 (spec/30_encoding.md R82). -/
theorem symbolHigh_get (t : Nat) :
    symbolHigh[t]? = if t < 4 then some (if t = 1 then .mult else .one) else none := by
  rcases t with _ | _ | _ | _ | t <;> rfl

/-- The slots of `LOW`: the long pulse at offset 3 (R81). -/
theorem symbolLow_get (t : Nat) :
    symbolLow[t]? = if t < 4 then some (if t = 3 then .mult else .one) else none := by
  rcases t with _ | _ | _ | _ | t <;> rfl

/-- An overlay writes `HIGH` where its bit is 1 and nothing where it is 0. -/
theorem overlayBit_get (slot : Nat) (b : Bool) (k : Coefs) (i : Nat) (h : i < 132) :
    (overlayBit slot b k)[i] =
      if b = true ∧ slot ≤ i ∧ i < slot + 4 then (if i = slot + 1 then .mult else .one) else k[i] := by
  cases b with
  | false => simp [overlayBit]
  | true =>
    simp only [overlayBit, if_true, put_get, symbolHigh_get, true_and]
    by_cases hs : slot ≤ i
    · by_cases ht : i < slot + 4
      · have h1 : i - slot < 4 := by omega
        have h2 : i - slot = 1 ↔ i = slot + 1 := by omega
        simp [hs, ht, h1, h2]
      · have h1 : ¬ i - slot < 4 := by omega
        simp [ht, h1]
    · simp [hs]

/-- The digits of a field fill the groups backward from the anchor; a group holds `HIGH` where its digit is 1,
and is left as it was where it is 0. -/
theorem overlayField_get (anchor : Nat) {w : Nat} (v : BitVec w) (k : Coefs) (ha : 4 * w ≤ anchor)
    (i : Nat) (h : i < 132) :
    (overlayField anchor v k)[i] =
      if anchor - 4 * w ≤ i ∧ i < anchor ∧ v.getLsbD (w - 1 - (anchor - 1 - i) / 4) = true then
        (if (anchor - 1 - i) % 4 = 2 then .mult else .one)
      else k[i] := by
  have key : ∀ n, n ≤ w →
      ((List.range n).foldl (fun acc d => overlayBit (digitSlot anchor d) (v.getLsbD (w - 1 - d)) acc) k)[i] =
      if anchor - 4 * n ≤ i ∧ i < anchor ∧ v.getLsbD (w - 1 - (anchor - 1 - i) / 4) = true then
        (if (anchor - 1 - i) % 4 = 2 then .mult else .one)
      else k[i] := by
    intro n
    induction n with
    | zero =>
      intro _
      have : ¬ (anchor - 4 * 0 ≤ i ∧ i < anchor ∧ v.getLsbD (w - 1 - (anchor - 1 - i) / 4) = true) := by
        intro hc; omega
      rw [if_neg this]; rfl
    | succ n ih =>
      intro hn
      rw [List.range_succ, List.foldl_append]
      simp only [List.foldl_cons, List.foldl_nil, overlayBit_get]
      rw [ih (by omega)]
      rw [show digitSlot anchor n = anchor - 4 * (n + 1) from rfl]
      by_cases hin : anchor - 4 * (n + 1) ≤ i ∧ i < anchor - 4 * (n + 1) + 4
      · have hd : (anchor - 1 - i) / 4 = n := by omega
        have ht : i = anchor - 4 * (n + 1) + 1 ↔ (anchor - 1 - i) % 4 = 2 := by omega
        have h1 : ¬ anchor - 4 * n ≤ i := by omega
        have h2 : i < anchor := by omega
        simp only [hin.1, hin.2, hd, ht, h1, h2, true_and, and_true, false_and, if_false]
      · have h0 : ¬ (v.getLsbD (w - 1 - n) = true ∧ anchor - 4 * (n + 1) ≤ i ∧ i < anchor - 4 * (n + 1) + 4) :=
          fun hc => hin hc.2
        have h1 : anchor - 4 * n ≤ i ↔ anchor - 4 * (n + 1) ≤ i := by omega
        rw [if_neg h0]
        simp only [h1]
  exact key w (Nat.le_refl w)

/-- `P_START` writes the start marker in slots 0 and 1 (spec/41_encoder.md R141). -/
theorem startCoefs_get (k : Coefs) (i : Nat) (h : i < 132) :
    (startCoefs k)[i] = if i = 0 then .one else if i = 1 then .startMult else k[i] := by
  simp only [startCoefs, put_get, symbolStart]
  rcases i with _ | _ | i <;> simp

/-- `P_CLEAR` leaves slots 0 and 1, and writes `LOW` in every group and 1 in slots 130 and 131 (R142). -/
theorem clearCoefs_get (k : Coefs) (i : Nat) (h : i < 132) :
    (clearCoefs k)[i] = if i < 2 then k[i] else if (i - 2) % 4 = 3 then .mult else .one := by
  have key : ∀ n, ((List.range n).foldl
      (fun acc g => put acc (2 + 4 * g) symbolLow) k)[i] =
      if i < 2 ∨ 2 + 4 * n ≤ i then k[i] else if (i - 2) % 4 = 3 then .mult else .one := by
    intro n
    induction n with
    | zero =>
      have : i < 2 ∨ 2 + 4 * 0 ≤ i := by omega
      rw [if_pos this]; rfl
    | succ n ih =>
      rw [List.range_succ, List.foldl_append]
      simp only [List.foldl_cons, List.foldl_nil, put_get]
      rw [ih]
      by_cases hin : 2 + 4 * n ≤ i ∧ i < 2 + 4 * (n + 1)
      · have h1 : ¬ (i < 2 ∨ 2 + 4 * (n + 1) ≤ i) := by omega
        rw [if_pos hin.1, if_neg h1]
        obtain ⟨t, rfl⟩ : ∃ t, i = 2 + 4 * n + t := ⟨i - (2 + 4 * n), by omega⟩
        have ht : t < 4 := by omega
        have hm : (2 + 4 * n + t - 2) % 4 = t := by omega
        rw [hm, Nat.add_sub_cancel_left]
        interval_cases t <;> simp [symbolLow]
      · by_cases hlow : 2 + 4 * n ≤ i
        · have h5 : symbolLow[i - (2 + 4 * n)]? = none := by
            rw [List.getElem?_eq_none_iff]
            show 4 ≤ _
            omega
          have h1 : i < 2 ∨ 2 + 4 * n ≤ i := by omega
          have h2 : i < 2 ∨ 2 + 4 * (n + 1) ≤ i := by omega
          rw [if_pos hlow, h5, if_pos h1, if_pos h2]; rfl
        · rw [if_neg hlow]
          have h1 : (i < 2 ∨ 2 + 4 * n ≤ i) ↔ (i < 2 ∨ 2 + 4 * (n + 1) ≤ i) := by omega
          simp only [h1]
  have := key 33
  have hk : clearCoefs k = (List.range 33).foldl (fun acc g => put acc (2 + 4 * g) symbolLow) k := rfl
  simp only [hk]
  rw [this]
  have h2 : (i < 2 ∨ 2 + 4 * 33 ≤ i) ↔ i < 2 := by
    have : i < 132 := h
    omega
  simp only [h2]

/-- `P_ID` puts `HIGH` in the groups of its set bits (R143). -/
theorem idCoefs_get (id : BitVec 26) (k : Coefs) (i : Nat) (h : i < 132) :
    (idCoefs id k)[i] =
      if 2 ≤ i ∧ i < 106 ∧ id.getLsbD ((i - 2) / 4) = true then (if (i - 2) % 4 = 1 then .mult else .one)
      else k[i] := by
  show (overlayField 106 id k)[i] = _
  rw [overlayField_get 106 id k (by omega) i h]
  by_cases hin : 2 ≤ i ∧ i < 106
  · have h1 : 26 - 1 - (106 - 1 - i) / 4 = (i - 2) / 4 := by omega
    have h2 : (106 - 1 - i) % 4 = 2 ↔ (i - 2) % 4 = 1 := by omega
    simp only [h1, h2, Nat.reduceMul, Nat.reduceSub]
  · rw [if_neg (fun hc => hin ⟨hc.1, hc.2.1⟩), if_neg (fun hc => hin ⟨hc.1, hc.2.1⟩)]

/-- `P_UNIT` puts `HIGH` in the groups of its set bits, and writes nothing in all-devices mode (R146). -/
theorem unitCoefs_get (all : Bool) (unit : BitVec 4) (k : Coefs) (i : Nat) (h : i < 132) :
    (unitCoefs all unit k)[i] =
      if all = false ∧ 114 ≤ i ∧ i < 130 ∧ unit.getLsbD ((i - 2) / 4 - 28) = true then
        (if (i - 2) % 4 = 1 then .mult else .one)
      else k[i] := by
  cases all with
  | true => rw [if_neg (fun hc => Bool.noConfusion hc.1)]; rfl
  | false =>
    show (overlayField 130 unit k)[i] = _
    rw [overlayField_get 130 unit k (by omega) i h]
    by_cases hin : 114 ≤ i ∧ i < 130
    · have h1 : 4 - 1 - (130 - 1 - i) / 4 = (i - 2) / 4 - 28 := by omega
      have h2 : (130 - 1 - i) % 4 = 2 ↔ (i - 2) % 4 = 1 := by omega
      simp only [h1, h2, Nat.reduceMul, Nat.reduceSub, true_and]
    · rw [if_neg (fun hc => hin ⟨hc.1, hc.2.1⟩), if_neg (fun hc => hin ⟨hc.2.1, hc.2.2.1⟩)]

/-- `P_FOOTER` writes slot 131 alone (R147). -/
theorem footerCoefs_get (k : Coefs) (i : Nat) (h : i < 132) :
    (footerCoefs k)[i] = if i = 131 then .pulseDiv else k[i] := by
  have h' : i < 132 := h
  simp only [footerCoefs, put_get, Config.footerSlot]
  by_cases h1 : i = 131
  · subst h1; simp
  · have : ¬ 131 ≤ i := by omega
    simp [h1, this]

/-- `P_SCALE` multiplies slot by slot (R148). -/
@[simp] theorem scaleCoefs_get (base : Nat) (k : Coefs) (i : Nat) (h : i < 132) :
    (scaleCoefs base k)[i] = duration base k[i] := by
  simp [scaleCoefs]

/-- Every base is one of the four presets. -/
theorem base_cases (sel : BitVec 2) :
    Config.base sel = 315 ∨ Config.base sel = 251 ∨ Config.base sel = 294 ∨ Config.base sel = 303 := by
  revert sel; decide

/-- `PULSE_DIV` is positive and at most 208 (spec/00_scope.md R11, R12). -/
theorem pulseDiv_range : 1 ≤ Config.pulseDiv ∧ Config.pulseDiv ≤ 208 := by
  have := Config.pulseDivLessOne.isLt
  unfold Config.pulseDiv
  omega

/-- Every coefficient is positive and at most 208. -/
theorem value_range (c : Coef) : 1 ≤ c.value ∧ c.value ≤ 208 := by
  have := pulseDiv_range
  cases c <;> simp [Coef.value, Config.mult, Config.startMult]
  exact this

/-- No product wraps at the slot width (R158). -/
theorem duration_toNat (sel : BitVec 2) (c : Coef) :
    (duration (Config.base sel) c).toNat = c.value * Config.base sel := by
  have hv := value_range c
  have hb : Config.base sel ≤ 315 := by
    rcases base_cases sel with h | h | h | h <;> omega
  have : c.value * Config.base sel ≤ 208 * 315 := Nat.mul_le_mul hv.2 hb
  unfold duration
  rw [BitVec.toNat_ofNat, Nat.mod_eq_of_lt (by omega)]

end Sys2Proof.Machine
end

