-- ==== Sys2Proof/Laws/State.lean ====
section
/-! SUPPORT. Every field of the state after every update of the registers, each by rfl. -/

namespace Sys2Proof.Machine

/-! ### markCommand -/

@[simp] theorem State.markCommand_cm (s : State) :
    (s.markCommand).cm = s.cm := rfl

@[simp] theorem State.markCommand_cmValid (s : State) :
    (s.markCommand).cmValid = true := rfl

@[simp] theorem State.markCommand_train (s : State) :
    (s.markCommand).train = s.train := rfl

@[simp] theorem State.markCommand_trainValid (s : State) :
    (s.markCommand).trainValid = s.trainValid := rfl

@[simp] theorem State.markCommand_repeatCount (s : State) :
    (s.markCommand).repeatCount = s.repeatCount := rfl

@[simp] theorem State.markCommand_fail (s : State) :
    (s.markCommand).fail = s.fail := rfl

@[simp] theorem State.markCommand_err (s : State) :
    (s.markCommand).err = s.err := rfl

@[simp] theorem State.markCommand_msg (s : State) :
    (s.markCommand).msg = s.msg := rfl

@[simp] theorem State.markCommand_msgValid (s : State) :
    (s.markCommand).msgValid = s.msgValid := rfl

@[simp] theorem State.markCommand_ph (s : State) :
    (s.markCommand).ph = s.ph := rfl

@[simp] theorem State.markCommand_k (s : State) :
    (s.markCommand).k = s.k := rfl

@[simp] theorem State.markCommand_verdict (s : State) :
    (s.markCommand).verdict = s.verdict := rfl

@[simp] theorem State.markCommand_log (s : State) :
    (s.markCommand).log = s.log := rfl

@[simp] theorem State.markCommand_port (s : State) :
    (s.markCommand).port = s.port := rfl

@[simp] theorem State.markCommand_unheldReads (s : State) :
    (s.markCommand).unheldReads = s.unheldReads := rfl

/-! ### reportSuccess -/

@[simp] theorem State.reportSuccess_cm (s : State) :
    (s.reportSuccess).cm = s.cm := rfl

@[simp] theorem State.reportSuccess_cmValid (s : State) :
    (s.reportSuccess).cmValid = s.cmValid := rfl

@[simp] theorem State.reportSuccess_train (s : State) :
    (s.reportSuccess).train = s.train := rfl

@[simp] theorem State.reportSuccess_trainValid (s : State) :
    (s.reportSuccess).trainValid = s.trainValid := rfl

@[simp] theorem State.reportSuccess_repeatCount (s : State) :
    (s.reportSuccess).repeatCount = s.repeatCount := rfl

@[simp] theorem State.reportSuccess_fail (s : State) :
    (s.reportSuccess).fail = false := rfl

@[simp] theorem State.reportSuccess_err (s : State) :
    (s.reportSuccess).err = 0 := rfl

@[simp] theorem State.reportSuccess_msg (s : State) :
    (s.reportSuccess).msg = s.msg := rfl

@[simp] theorem State.reportSuccess_msgValid (s : State) :
    (s.reportSuccess).msgValid = true := rfl

@[simp] theorem State.reportSuccess_ph (s : State) :
    (s.reportSuccess).ph = s.ph := rfl

@[simp] theorem State.reportSuccess_k (s : State) :
    (s.reportSuccess).k = s.k := rfl

@[simp] theorem State.reportSuccess_verdict (s : State) :
    (s.reportSuccess).verdict = s.verdict := rfl

@[simp] theorem State.reportSuccess_log (s : State) :
    (s.reportSuccess).log = s.log := rfl

@[simp] theorem State.reportSuccess_port (s : State) :
    (s.reportSuccess).port = s.port := rfl

@[simp] theorem State.reportSuccess_unheldReads (s : State) :
    (s.reportSuccess).unheldReads = s.unheldReads := rfl

/-! ### takeFailure -/

@[simp] theorem State.takeFailure_cm (f : FailKind) (s : State) :
    (s.takeFailure f).cm = CommandRegister.absent := rfl

@[simp] theorem State.takeFailure_cmValid (f : FailKind) (s : State) :
    (s.takeFailure f).cmValid = false := rfl

@[simp] theorem State.takeFailure_train (f : FailKind) (s : State) :
    (s.takeFailure f).train = none := rfl

@[simp] theorem State.takeFailure_trainValid (f : FailKind) (s : State) :
    (s.takeFailure f).trainValid = false := rfl

@[simp] theorem State.takeFailure_repeatCount (f : FailKind) (s : State) :
    (s.takeFailure f).repeatCount = none := rfl

@[simp] theorem State.takeFailure_fail (f : FailKind) (s : State) :
    (s.takeFailure f).fail = true := rfl

@[simp] theorem State.takeFailure_err (f : FailKind) (s : State) :
    (s.takeFailure f).err = f.code := rfl

@[simp] theorem State.takeFailure_msg (f : FailKind) (s : State) :
    (s.takeFailure f).msg = none := rfl

@[simp] theorem State.takeFailure_msgValid (f : FailKind) (s : State) :
    (s.takeFailure f).msgValid = false := rfl

@[simp] theorem State.takeFailure_ph (f : FailKind) (s : State) :
    (s.takeFailure f).ph = s.ph := rfl

@[simp] theorem State.takeFailure_k (f : FailKind) (s : State) :
    (s.takeFailure f).k = s.k := rfl

@[simp] theorem State.takeFailure_verdict (f : FailKind) (s : State) :
    (s.takeFailure f).verdict = s.verdict := rfl

@[simp] theorem State.takeFailure_log (f : FailKind) (s : State) :
    (s.takeFailure f).log = s.log ++ [{ severity := .error, kind := f }] := rfl

@[simp] theorem State.takeFailure_port (f : FailKind) (s : State) :
    (s.takeFailure f).port = s.port := rfl

@[simp] theorem State.takeFailure_unheldReads (f : FailKind) (s : State) :
    (s.takeFailure f).unheldReads = s.unheldReads := rfl

/-! ### endPass -/

@[simp] theorem State.endPass_cm (p : BitVec 3) (k : Coefs) (s : State) :
    (s.endPass p k).cm = s.cm := rfl

@[simp] theorem State.endPass_cmValid (p : BitVec 3) (k : Coefs) (s : State) :
    (s.endPass p k).cmValid = s.cmValid := rfl

@[simp] theorem State.endPass_train (p : BitVec 3) (k : Coefs) (s : State) :
    (s.endPass p k).train = s.train := rfl

@[simp] theorem State.endPass_trainValid (p : BitVec 3) (k : Coefs) (s : State) :
    (s.endPass p k).trainValid = s.trainValid := rfl

@[simp] theorem State.endPass_repeatCount (p : BitVec 3) (k : Coefs) (s : State) :
    (s.endPass p k).repeatCount = s.repeatCount := rfl

@[simp] theorem State.endPass_fail (p : BitVec 3) (k : Coefs) (s : State) :
    (s.endPass p k).fail = s.fail := rfl

@[simp] theorem State.endPass_err (p : BitVec 3) (k : Coefs) (s : State) :
    (s.endPass p k).err = s.err := rfl

@[simp] theorem State.endPass_msg (p : BitVec 3) (k : Coefs) (s : State) :
    (s.endPass p k).msg = s.msg := rfl

@[simp] theorem State.endPass_msgValid (p : BitVec 3) (k : Coefs) (s : State) :
    (s.endPass p k).msgValid = s.msgValid := rfl

@[simp] theorem State.endPass_ph (p : BitVec 3) (k : Coefs) (s : State) :
    (s.endPass p k).ph = if p = 6 then 0 else p + 1 := rfl

@[simp] theorem State.endPass_k (p : BitVec 3) (k : Coefs) (s : State) :
    (s.endPass p k).k = k := rfl

@[simp] theorem State.endPass_verdict (p : BitVec 3) (k : Coefs) (s : State) :
    (s.endPass p k).verdict = s.verdict := rfl

@[simp] theorem State.endPass_log (p : BitVec 3) (k : Coefs) (s : State) :
    (s.endPass p k).log = s.log := rfl

@[simp] theorem State.endPass_port (p : BitVec 3) (k : Coefs) (s : State) :
    (s.endPass p k).port = s.port := rfl

@[simp] theorem State.endPass_unheldReads (p : BitVec 3) (k : Coefs) (s : State) :
    (s.endPass p k).unheldReads = s.unheldReads := rfl

/-! ### writeCoefs -/

@[simp] theorem State.writeCoefs_cm (k : Coefs) (s : State) :
    (s.writeCoefs k).cm = s.cm := rfl

@[simp] theorem State.writeCoefs_cmValid (k : Coefs) (s : State) :
    (s.writeCoefs k).cmValid = s.cmValid := rfl

@[simp] theorem State.writeCoefs_train (k : Coefs) (s : State) :
    (s.writeCoefs k).train = s.train := rfl

@[simp] theorem State.writeCoefs_trainValid (k : Coefs) (s : State) :
    (s.writeCoefs k).trainValid = s.trainValid := rfl

@[simp] theorem State.writeCoefs_repeatCount (k : Coefs) (s : State) :
    (s.writeCoefs k).repeatCount = s.repeatCount := rfl

@[simp] theorem State.writeCoefs_fail (k : Coefs) (s : State) :
    (s.writeCoefs k).fail = s.fail := rfl

@[simp] theorem State.writeCoefs_err (k : Coefs) (s : State) :
    (s.writeCoefs k).err = s.err := rfl

@[simp] theorem State.writeCoefs_msg (k : Coefs) (s : State) :
    (s.writeCoefs k).msg = s.msg := rfl

@[simp] theorem State.writeCoefs_msgValid (k : Coefs) (s : State) :
    (s.writeCoefs k).msgValid = s.msgValid := rfl

@[simp] theorem State.writeCoefs_ph (k : Coefs) (s : State) :
    (s.writeCoefs k).ph = s.ph := rfl

@[simp] theorem State.writeCoefs_k (k : Coefs) (s : State) :
    (s.writeCoefs k).k = k := rfl

@[simp] theorem State.writeCoefs_verdict (k : Coefs) (s : State) :
    (s.writeCoefs k).verdict = s.verdict := rfl

@[simp] theorem State.writeCoefs_log (k : Coefs) (s : State) :
    (s.writeCoefs k).log = s.log := rfl

@[simp] theorem State.writeCoefs_port (k : Coefs) (s : State) :
    (s.writeCoefs k).port = s.port := rfl

@[simp] theorem State.writeCoefs_unheldReads (k : Coefs) (s : State) :
    (s.writeCoefs k).unheldReads = s.unheldReads := rfl

/-! ### openCreate -/

@[simp] theorem State.openCreate_cm (v : Verdict) (s : State) :
    (s.openCreate v).cm = s.cm := rfl

@[simp] theorem State.openCreate_cmValid (v : Verdict) (s : State) :
    (s.openCreate v).cmValid = s.cmValid := rfl

@[simp] theorem State.openCreate_train (v : Verdict) (s : State) :
    (s.openCreate v).train = s.train := rfl

@[simp] theorem State.openCreate_trainValid (v : Verdict) (s : State) :
    (s.openCreate v).trainValid = s.trainValid := rfl

@[simp] theorem State.openCreate_repeatCount (v : Verdict) (s : State) :
    (s.openCreate v).repeatCount = s.repeatCount := rfl

@[simp] theorem State.openCreate_fail (v : Verdict) (s : State) :
    (s.openCreate v).fail = s.fail := rfl

@[simp] theorem State.openCreate_err (v : Verdict) (s : State) :
    (s.openCreate v).err = s.err := rfl

@[simp] theorem State.openCreate_msg (v : Verdict) (s : State) :
    (s.openCreate v).msg = s.msg := rfl

@[simp] theorem State.openCreate_msgValid (v : Verdict) (s : State) :
    (s.openCreate v).msgValid = s.msgValid := rfl

@[simp] theorem State.openCreate_ph (v : Verdict) (s : State) :
    (s.openCreate v).ph = 0 := rfl

@[simp] theorem State.openCreate_k (v : Verdict) (s : State) :
    (s.openCreate v).k = s.k := rfl

@[simp] theorem State.openCreate_verdict (v : Verdict) (s : State) :
    (s.openCreate v).verdict = some v := rfl

@[simp] theorem State.openCreate_log (v : Verdict) (s : State) :
    (s.openCreate v).log = s.log := rfl

@[simp] theorem State.openCreate_port (v : Verdict) (s : State) :
    (s.openCreate v).port = s.port := rfl

@[simp] theorem State.openCreate_unheldReads (v : Verdict) (s : State) :
    (s.openCreate v).unheldReads = s.unheldReads := rfl

/-! ### keepVerdict -/

@[simp] theorem State.keepVerdict_cm (v : Verdict) (s : State) :
    (s.keepVerdict v).cm = s.cm := rfl

@[simp] theorem State.keepVerdict_cmValid (v : Verdict) (s : State) :
    (s.keepVerdict v).cmValid = s.cmValid := rfl

@[simp] theorem State.keepVerdict_train (v : Verdict) (s : State) :
    (s.keepVerdict v).train = s.train := rfl

@[simp] theorem State.keepVerdict_trainValid (v : Verdict) (s : State) :
    (s.keepVerdict v).trainValid = s.trainValid := rfl

@[simp] theorem State.keepVerdict_repeatCount (v : Verdict) (s : State) :
    (s.keepVerdict v).repeatCount = s.repeatCount := rfl

@[simp] theorem State.keepVerdict_fail (v : Verdict) (s : State) :
    (s.keepVerdict v).fail = s.fail := rfl

@[simp] theorem State.keepVerdict_err (v : Verdict) (s : State) :
    (s.keepVerdict v).err = s.err := rfl

@[simp] theorem State.keepVerdict_msg (v : Verdict) (s : State) :
    (s.keepVerdict v).msg = s.msg := rfl

@[simp] theorem State.keepVerdict_msgValid (v : Verdict) (s : State) :
    (s.keepVerdict v).msgValid = s.msgValid := rfl

@[simp] theorem State.keepVerdict_ph (v : Verdict) (s : State) :
    (s.keepVerdict v).ph = s.ph := rfl

@[simp] theorem State.keepVerdict_k (v : Verdict) (s : State) :
    (s.keepVerdict v).k = s.k := rfl

@[simp] theorem State.keepVerdict_verdict (v : Verdict) (s : State) :
    (s.keepVerdict v).verdict = some v := rfl

@[simp] theorem State.keepVerdict_log (v : Verdict) (s : State) :
    (s.keepVerdict v).log = s.log := rfl

@[simp] theorem State.keepVerdict_port (v : Verdict) (s : State) :
    (s.keepVerdict v).port = s.port := rfl

@[simp] theorem State.keepVerdict_unheldReads (v : Verdict) (s : State) :
    (s.keepVerdict v).unheldReads = s.unheldReads := rfl

/-! ### loadCommand -/

@[simp] theorem State.loadCommand_cm (c : CommandModel) (s : State) :
    (s.loadCommand c).cm = CommandRegister.holding c := rfl

@[simp] theorem State.loadCommand_cmValid (c : CommandModel) (s : State) :
    (s.loadCommand c).cmValid = s.cmValid := rfl

@[simp] theorem State.loadCommand_train (c : CommandModel) (s : State) :
    (s.loadCommand c).train = s.train := rfl

@[simp] theorem State.loadCommand_trainValid (c : CommandModel) (s : State) :
    (s.loadCommand c).trainValid = s.trainValid := rfl

@[simp] theorem State.loadCommand_repeatCount (c : CommandModel) (s : State) :
    (s.loadCommand c).repeatCount = s.repeatCount := rfl

@[simp] theorem State.loadCommand_fail (c : CommandModel) (s : State) :
    (s.loadCommand c).fail = s.fail := rfl

@[simp] theorem State.loadCommand_err (c : CommandModel) (s : State) :
    (s.loadCommand c).err = s.err := rfl

@[simp] theorem State.loadCommand_msg (c : CommandModel) (s : State) :
    (s.loadCommand c).msg = s.msg := rfl

@[simp] theorem State.loadCommand_msgValid (c : CommandModel) (s : State) :
    (s.loadCommand c).msgValid = s.msgValid := rfl

@[simp] theorem State.loadCommand_ph (c : CommandModel) (s : State) :
    (s.loadCommand c).ph = s.ph := rfl

@[simp] theorem State.loadCommand_k (c : CommandModel) (s : State) :
    (s.loadCommand c).k = s.k := rfl

@[simp] theorem State.loadCommand_verdict (c : CommandModel) (s : State) :
    (s.loadCommand c).verdict = s.verdict := rfl

@[simp] theorem State.loadCommand_log (c : CommandModel) (s : State) :
    (s.loadCommand c).log = s.log := rfl

@[simp] theorem State.loadCommand_port (c : CommandModel) (s : State) :
    (s.loadCommand c).port = s.port := rfl

@[simp] theorem State.loadCommand_unheldReads (c : CommandModel) (s : State) :
    (s.loadCommand c).unheldReads = s.unheldReads := rfl

/-! ### writeId -/

@[simp] theorem State.writeId_cm (id : BitVec 26) (s : State) :
    (s.writeId id).cm = { s.cm with id := some id } := rfl

@[simp] theorem State.writeId_cmValid (id : BitVec 26) (s : State) :
    (s.writeId id).cmValid = s.cmValid := rfl

@[simp] theorem State.writeId_train (id : BitVec 26) (s : State) :
    (s.writeId id).train = s.train := rfl

@[simp] theorem State.writeId_trainValid (id : BitVec 26) (s : State) :
    (s.writeId id).trainValid = s.trainValid := rfl

@[simp] theorem State.writeId_repeatCount (id : BitVec 26) (s : State) :
    (s.writeId id).repeatCount = s.repeatCount := rfl

@[simp] theorem State.writeId_fail (id : BitVec 26) (s : State) :
    (s.writeId id).fail = s.fail := rfl

@[simp] theorem State.writeId_err (id : BitVec 26) (s : State) :
    (s.writeId id).err = s.err := rfl

@[simp] theorem State.writeId_msg (id : BitVec 26) (s : State) :
    (s.writeId id).msg = s.msg := rfl

@[simp] theorem State.writeId_msgValid (id : BitVec 26) (s : State) :
    (s.writeId id).msgValid = s.msgValid := rfl

@[simp] theorem State.writeId_ph (id : BitVec 26) (s : State) :
    (s.writeId id).ph = s.ph := rfl

@[simp] theorem State.writeId_k (id : BitVec 26) (s : State) :
    (s.writeId id).k = s.k := rfl

@[simp] theorem State.writeId_verdict (id : BitVec 26) (s : State) :
    (s.writeId id).verdict = s.verdict := rfl

@[simp] theorem State.writeId_log (id : BitVec 26) (s : State) :
    (s.writeId id).log = s.log := rfl

@[simp] theorem State.writeId_port (id : BitVec 26) (s : State) :
    (s.writeId id).port = s.port := rfl

@[simp] theorem State.writeId_unheldReads (id : BitVec 26) (s : State) :
    (s.writeId id).unheldReads = s.unheldReads := rfl

/-! ### writeAll -/

@[simp] theorem State.writeAll_cm (a : Bool) (s : State) :
    (s.writeAll a).cm = { s.cm with all := some a } := rfl

@[simp] theorem State.writeAll_cmValid (a : Bool) (s : State) :
    (s.writeAll a).cmValid = s.cmValid := rfl

@[simp] theorem State.writeAll_train (a : Bool) (s : State) :
    (s.writeAll a).train = s.train := rfl

@[simp] theorem State.writeAll_trainValid (a : Bool) (s : State) :
    (s.writeAll a).trainValid = s.trainValid := rfl

@[simp] theorem State.writeAll_repeatCount (a : Bool) (s : State) :
    (s.writeAll a).repeatCount = s.repeatCount := rfl

@[simp] theorem State.writeAll_fail (a : Bool) (s : State) :
    (s.writeAll a).fail = s.fail := rfl

@[simp] theorem State.writeAll_err (a : Bool) (s : State) :
    (s.writeAll a).err = s.err := rfl

@[simp] theorem State.writeAll_msg (a : Bool) (s : State) :
    (s.writeAll a).msg = s.msg := rfl

@[simp] theorem State.writeAll_msgValid (a : Bool) (s : State) :
    (s.writeAll a).msgValid = s.msgValid := rfl

@[simp] theorem State.writeAll_ph (a : Bool) (s : State) :
    (s.writeAll a).ph = s.ph := rfl

@[simp] theorem State.writeAll_k (a : Bool) (s : State) :
    (s.writeAll a).k = s.k := rfl

@[simp] theorem State.writeAll_verdict (a : Bool) (s : State) :
    (s.writeAll a).verdict = s.verdict := rfl

@[simp] theorem State.writeAll_log (a : Bool) (s : State) :
    (s.writeAll a).log = s.log := rfl

@[simp] theorem State.writeAll_port (a : Bool) (s : State) :
    (s.writeAll a).port = s.port := rfl

@[simp] theorem State.writeAll_unheldReads (a : Bool) (s : State) :
    (s.writeAll a).unheldReads = s.unheldReads := rfl

/-! ### writeDirection -/

@[simp] theorem State.writeDirection_cm (d : Direction) (s : State) :
    (s.writeDirection d).cm = { s.cm with state := some d } := rfl

@[simp] theorem State.writeDirection_cmValid (d : Direction) (s : State) :
    (s.writeDirection d).cmValid = s.cmValid := rfl

@[simp] theorem State.writeDirection_train (d : Direction) (s : State) :
    (s.writeDirection d).train = s.train := rfl

@[simp] theorem State.writeDirection_trainValid (d : Direction) (s : State) :
    (s.writeDirection d).trainValid = s.trainValid := rfl

@[simp] theorem State.writeDirection_repeatCount (d : Direction) (s : State) :
    (s.writeDirection d).repeatCount = s.repeatCount := rfl

@[simp] theorem State.writeDirection_fail (d : Direction) (s : State) :
    (s.writeDirection d).fail = s.fail := rfl

@[simp] theorem State.writeDirection_err (d : Direction) (s : State) :
    (s.writeDirection d).err = s.err := rfl

@[simp] theorem State.writeDirection_msg (d : Direction) (s : State) :
    (s.writeDirection d).msg = s.msg := rfl

@[simp] theorem State.writeDirection_msgValid (d : Direction) (s : State) :
    (s.writeDirection d).msgValid = s.msgValid := rfl

@[simp] theorem State.writeDirection_ph (d : Direction) (s : State) :
    (s.writeDirection d).ph = s.ph := rfl

@[simp] theorem State.writeDirection_k (d : Direction) (s : State) :
    (s.writeDirection d).k = s.k := rfl

@[simp] theorem State.writeDirection_verdict (d : Direction) (s : State) :
    (s.writeDirection d).verdict = s.verdict := rfl

@[simp] theorem State.writeDirection_log (d : Direction) (s : State) :
    (s.writeDirection d).log = s.log := rfl

@[simp] theorem State.writeDirection_port (d : Direction) (s : State) :
    (s.writeDirection d).port = s.port := rfl

@[simp] theorem State.writeDirection_unheldReads (d : Direction) (s : State) :
    (s.writeDirection d).unheldReads = s.unheldReads := rfl

/-! ### writeUnit -/

@[simp] theorem State.writeUnit_cm (u : BitVec 4) (s : State) :
    (s.writeUnit u).cm = { s.cm with unit := some u } := rfl

@[simp] theorem State.writeUnit_cmValid (u : BitVec 4) (s : State) :
    (s.writeUnit u).cmValid = s.cmValid := rfl

@[simp] theorem State.writeUnit_train (u : BitVec 4) (s : State) :
    (s.writeUnit u).train = s.train := rfl

@[simp] theorem State.writeUnit_trainValid (u : BitVec 4) (s : State) :
    (s.writeUnit u).trainValid = s.trainValid := rfl

@[simp] theorem State.writeUnit_repeatCount (u : BitVec 4) (s : State) :
    (s.writeUnit u).repeatCount = s.repeatCount := rfl

@[simp] theorem State.writeUnit_fail (u : BitVec 4) (s : State) :
    (s.writeUnit u).fail = s.fail := rfl

@[simp] theorem State.writeUnit_err (u : BitVec 4) (s : State) :
    (s.writeUnit u).err = s.err := rfl

@[simp] theorem State.writeUnit_msg (u : BitVec 4) (s : State) :
    (s.writeUnit u).msg = s.msg := rfl

@[simp] theorem State.writeUnit_msgValid (u : BitVec 4) (s : State) :
    (s.writeUnit u).msgValid = s.msgValid := rfl

@[simp] theorem State.writeUnit_ph (u : BitVec 4) (s : State) :
    (s.writeUnit u).ph = s.ph := rfl

@[simp] theorem State.writeUnit_k (u : BitVec 4) (s : State) :
    (s.writeUnit u).k = s.k := rfl

@[simp] theorem State.writeUnit_verdict (u : BitVec 4) (s : State) :
    (s.writeUnit u).verdict = s.verdict := rfl

@[simp] theorem State.writeUnit_log (u : BitVec 4) (s : State) :
    (s.writeUnit u).log = s.log := rfl

@[simp] theorem State.writeUnit_port (u : BitVec 4) (s : State) :
    (s.writeUnit u).port = s.port := rfl

@[simp] theorem State.writeUnit_unheldReads (u : BitVec 4) (s : State) :
    (s.writeUnit u).unheldReads = s.unheldReads := rfl

/-! ### clearLearn -/

@[simp] theorem State.clearLearn_cm (s : State) :
    (s.clearLearn).cm = { s.cm with learn := some false } := rfl

@[simp] theorem State.clearLearn_cmValid (s : State) :
    (s.clearLearn).cmValid = s.cmValid := rfl

@[simp] theorem State.clearLearn_train (s : State) :
    (s.clearLearn).train = s.train := rfl

@[simp] theorem State.clearLearn_trainValid (s : State) :
    (s.clearLearn).trainValid = s.trainValid := rfl

@[simp] theorem State.clearLearn_repeatCount (s : State) :
    (s.clearLearn).repeatCount = s.repeatCount := rfl

@[simp] theorem State.clearLearn_fail (s : State) :
    (s.clearLearn).fail = s.fail := rfl

@[simp] theorem State.clearLearn_err (s : State) :
    (s.clearLearn).err = s.err := rfl

@[simp] theorem State.clearLearn_msg (s : State) :
    (s.clearLearn).msg = s.msg := rfl

@[simp] theorem State.clearLearn_msgValid (s : State) :
    (s.clearLearn).msgValid = s.msgValid := rfl

@[simp] theorem State.clearLearn_ph (s : State) :
    (s.clearLearn).ph = s.ph := rfl

@[simp] theorem State.clearLearn_k (s : State) :
    (s.clearLearn).k = s.k := rfl

@[simp] theorem State.clearLearn_verdict (s : State) :
    (s.clearLearn).verdict = s.verdict := rfl

@[simp] theorem State.clearLearn_log (s : State) :
    (s.clearLearn).log = s.log := rfl

@[simp] theorem State.clearLearn_port (s : State) :
    (s.clearLearn).port = s.port := rfl

@[simp] theorem State.clearLearn_unheldReads (s : State) :
    (s.clearLearn).unheldReads = s.unheldReads := rfl

/-! ### publishTrain -/

@[simp] theorem State.publishTrain_cm (t : Train) (s : State) :
    (s.publishTrain t).cm = s.cm := rfl

@[simp] theorem State.publishTrain_cmValid (t : Train) (s : State) :
    (s.publishTrain t).cmValid = s.cmValid := rfl

@[simp] theorem State.publishTrain_train (t : Train) (s : State) :
    (s.publishTrain t).train = some t := rfl

@[simp] theorem State.publishTrain_trainValid (t : Train) (s : State) :
    (s.publishTrain t).trainValid = true := rfl

@[simp] theorem State.publishTrain_repeatCount (t : Train) (s : State) :
    (s.publishTrain t).repeatCount = s.repeatCount := rfl

@[simp] theorem State.publishTrain_fail (t : Train) (s : State) :
    (s.publishTrain t).fail = s.fail := rfl

@[simp] theorem State.publishTrain_err (t : Train) (s : State) :
    (s.publishTrain t).err = s.err := rfl

@[simp] theorem State.publishTrain_msg (t : Train) (s : State) :
    (s.publishTrain t).msg = s.msg := rfl

@[simp] theorem State.publishTrain_msgValid (t : Train) (s : State) :
    (s.publishTrain t).msgValid = s.msgValid := rfl

@[simp] theorem State.publishTrain_ph (t : Train) (s : State) :
    (s.publishTrain t).ph = s.ph := rfl

@[simp] theorem State.publishTrain_k (t : Train) (s : State) :
    (s.publishTrain t).k = s.k := rfl

@[simp] theorem State.publishTrain_verdict (t : Train) (s : State) :
    (s.publishTrain t).verdict = s.verdict := rfl

@[simp] theorem State.publishTrain_log (t : Train) (s : State) :
    (s.publishTrain t).log = s.log := rfl

@[simp] theorem State.publishTrain_port (t : Train) (s : State) :
    (s.publishTrain t).port = s.port := rfl

@[simp] theorem State.publishTrain_unheldReads (t : Train) (s : State) :
    (s.publishTrain t).unheldReads = s.unheldReads := rfl

/-! ### writeRepeat -/

@[simp] theorem State.writeRepeat_cm (r : BitVec 6) (s : State) :
    (s.writeRepeat r).cm = s.cm := rfl

@[simp] theorem State.writeRepeat_cmValid (r : BitVec 6) (s : State) :
    (s.writeRepeat r).cmValid = s.cmValid := rfl

@[simp] theorem State.writeRepeat_train (r : BitVec 6) (s : State) :
    (s.writeRepeat r).train = s.train := rfl

@[simp] theorem State.writeRepeat_trainValid (r : BitVec 6) (s : State) :
    (s.writeRepeat r).trainValid = s.trainValid := rfl

@[simp] theorem State.writeRepeat_repeatCount (r : BitVec 6) (s : State) :
    (s.writeRepeat r).repeatCount = some r := rfl

@[simp] theorem State.writeRepeat_fail (r : BitVec 6) (s : State) :
    (s.writeRepeat r).fail = s.fail := rfl

@[simp] theorem State.writeRepeat_err (r : BitVec 6) (s : State) :
    (s.writeRepeat r).err = s.err := rfl

@[simp] theorem State.writeRepeat_msg (r : BitVec 6) (s : State) :
    (s.writeRepeat r).msg = s.msg := rfl

@[simp] theorem State.writeRepeat_msgValid (r : BitVec 6) (s : State) :
    (s.writeRepeat r).msgValid = s.msgValid := rfl

@[simp] theorem State.writeRepeat_ph (r : BitVec 6) (s : State) :
    (s.writeRepeat r).ph = s.ph := rfl

@[simp] theorem State.writeRepeat_k (r : BitVec 6) (s : State) :
    (s.writeRepeat r).k = s.k := rfl

@[simp] theorem State.writeRepeat_verdict (r : BitVec 6) (s : State) :
    (s.writeRepeat r).verdict = s.verdict := rfl

@[simp] theorem State.writeRepeat_log (r : BitVec 6) (s : State) :
    (s.writeRepeat r).log = s.log := rfl

@[simp] theorem State.writeRepeat_port (r : BitVec 6) (s : State) :
    (s.writeRepeat r).port = s.port := rfl

@[simp] theorem State.writeRepeat_unheldReads (r : BitVec 6) (s : State) :
    (s.writeRepeat r).unheldReads = s.unheldReads := rfl

/-! ### writeMessage -/

@[simp] theorem State.writeMessage_cm (m : Message) (s : State) :
    (s.writeMessage m).cm = s.cm := rfl

@[simp] theorem State.writeMessage_cmValid (m : Message) (s : State) :
    (s.writeMessage m).cmValid = s.cmValid := rfl

@[simp] theorem State.writeMessage_train (m : Message) (s : State) :
    (s.writeMessage m).train = s.train := rfl

@[simp] theorem State.writeMessage_trainValid (m : Message) (s : State) :
    (s.writeMessage m).trainValid = s.trainValid := rfl

@[simp] theorem State.writeMessage_repeatCount (m : Message) (s : State) :
    (s.writeMessage m).repeatCount = s.repeatCount := rfl

@[simp] theorem State.writeMessage_fail (m : Message) (s : State) :
    (s.writeMessage m).fail = s.fail := rfl

@[simp] theorem State.writeMessage_err (m : Message) (s : State) :
    (s.writeMessage m).err = s.err := rfl

@[simp] theorem State.writeMessage_msg (m : Message) (s : State) :
    (s.writeMessage m).msg = some m := rfl

@[simp] theorem State.writeMessage_msgValid (m : Message) (s : State) :
    (s.writeMessage m).msgValid = s.msgValid := rfl

@[simp] theorem State.writeMessage_ph (m : Message) (s : State) :
    (s.writeMessage m).ph = s.ph := rfl

@[simp] theorem State.writeMessage_k (m : Message) (s : State) :
    (s.writeMessage m).k = s.k := rfl

@[simp] theorem State.writeMessage_verdict (m : Message) (s : State) :
    (s.writeMessage m).verdict = s.verdict := rfl

@[simp] theorem State.writeMessage_log (m : Message) (s : State) :
    (s.writeMessage m).log = s.log := rfl

@[simp] theorem State.writeMessage_port (m : Message) (s : State) :
    (s.writeMessage m).port = s.port := rfl

@[simp] theorem State.writeMessage_unheldReads (m : Message) (s : State) :
    (s.writeMessage m).unheldReads = s.unheldReads := rfl

/-! ### takeWord -/

@[simp] theorem State.takeWord_cm (rest : List PortWord) (s : State) :
    (s.takeWord rest).cm = s.cm := rfl

@[simp] theorem State.takeWord_cmValid (rest : List PortWord) (s : State) :
    (s.takeWord rest).cmValid = s.cmValid := rfl

@[simp] theorem State.takeWord_train (rest : List PortWord) (s : State) :
    (s.takeWord rest).train = s.train := rfl

@[simp] theorem State.takeWord_trainValid (rest : List PortWord) (s : State) :
    (s.takeWord rest).trainValid = s.trainValid := rfl

@[simp] theorem State.takeWord_repeatCount (rest : List PortWord) (s : State) :
    (s.takeWord rest).repeatCount = s.repeatCount := rfl

@[simp] theorem State.takeWord_fail (rest : List PortWord) (s : State) :
    (s.takeWord rest).fail = s.fail := rfl

@[simp] theorem State.takeWord_err (rest : List PortWord) (s : State) :
    (s.takeWord rest).err = s.err := rfl

@[simp] theorem State.takeWord_msg (rest : List PortWord) (s : State) :
    (s.takeWord rest).msg = s.msg := rfl

@[simp] theorem State.takeWord_msgValid (rest : List PortWord) (s : State) :
    (s.takeWord rest).msgValid = s.msgValid := rfl

@[simp] theorem State.takeWord_ph (rest : List PortWord) (s : State) :
    (s.takeWord rest).ph = s.ph := rfl

@[simp] theorem State.takeWord_k (rest : List PortWord) (s : State) :
    (s.takeWord rest).k = s.k := rfl

@[simp] theorem State.takeWord_verdict (rest : List PortWord) (s : State) :
    (s.takeWord rest).verdict = s.verdict := rfl

@[simp] theorem State.takeWord_log (rest : List PortWord) (s : State) :
    (s.takeWord rest).log = s.log := rfl

@[simp] theorem State.takeWord_port (rest : List PortWord) (s : State) :
    (s.takeWord rest).port = rest := rfl

@[simp] theorem State.takeWord_unheldReads (rest : List PortWord) (s : State) :
    (s.takeWord rest).unheldReads = s.unheldReads := rfl

/-! ### countUnheldRead -/

@[simp] theorem State.countUnheldRead_cm (s : State) :
    (s.countUnheldRead).cm = s.cm := rfl

@[simp] theorem State.countUnheldRead_cmValid (s : State) :
    (s.countUnheldRead).cmValid = s.cmValid := rfl

@[simp] theorem State.countUnheldRead_train (s : State) :
    (s.countUnheldRead).train = s.train := rfl

@[simp] theorem State.countUnheldRead_trainValid (s : State) :
    (s.countUnheldRead).trainValid = s.trainValid := rfl

@[simp] theorem State.countUnheldRead_repeatCount (s : State) :
    (s.countUnheldRead).repeatCount = s.repeatCount := rfl

@[simp] theorem State.countUnheldRead_fail (s : State) :
    (s.countUnheldRead).fail = s.fail := rfl

@[simp] theorem State.countUnheldRead_err (s : State) :
    (s.countUnheldRead).err = s.err := rfl

@[simp] theorem State.countUnheldRead_msg (s : State) :
    (s.countUnheldRead).msg = s.msg := rfl

@[simp] theorem State.countUnheldRead_msgValid (s : State) :
    (s.countUnheldRead).msgValid = s.msgValid := rfl

@[simp] theorem State.countUnheldRead_ph (s : State) :
    (s.countUnheldRead).ph = s.ph := rfl

@[simp] theorem State.countUnheldRead_k (s : State) :
    (s.countUnheldRead).k = s.k := rfl

@[simp] theorem State.countUnheldRead_verdict (s : State) :
    (s.countUnheldRead).verdict = s.verdict := rfl

@[simp] theorem State.countUnheldRead_log (s : State) :
    (s.countUnheldRead).log = s.log := rfl

@[simp] theorem State.countUnheldRead_port (s : State) :
    (s.countUnheldRead).port = s.port := rfl

@[simp] theorem State.countUnheldRead_unheldReads (s : State) :
    (s.countUnheldRead).unheldReads = s.unheldReads + 1 := rfl

end Sys2Proof.Machine
end

