-- ==== Sys2Proof/Laws/Ops.lean ====
section
/-! SUPPORT. What each shared operation can do, said once: a read inside the block, `ENCODE` on the state, the two
ends of a `CREATE`, the readers at the ports, and fetching a word. -/

namespace Sys2Proof.Machine

/-- Everything a read inside the block can do: answer a value, the one held where one is held, and change nothing but
the count of reads without a value. -/
theorem readHeld_agrees {α : Type} (value : Option α) (free : Nat → α) (s : State) :
    ∃ a n, (∀ b, value = some b → a = b) ∧ readHeld value free s = (a, { s with unheldReads := n }) := by
  cases value with
  | none => exact ⟨free s.unheldReads, s.unheldReads + 1, nofun, rfl⟩
  | some a => exact ⟨a, s.unheldReads, fun _ h => Option.some.inj h, rfl⟩

@[simp] theorem readHeld_some {α : Type} (a : α) (free : Nat → α) (s : State) :
    readHeld (some a) free s = (a, s) := rfl

@[simp] theorem readHeld_none {α : Type} (free : Nat → α) (s : State) :
    readHeld none free s = (free s.unheldReads, s.countUnheldRead) := rfl

@[simp] theorem readUnit_all (s : State) : readUnit true s = (0, s) := rfl

@[simp] theorem readUnit_unit (s : State) :
    readUnit false s = readHeld s.cm.unit Config.unheldUnit s := rfl

/-- The same of a read of `CM.unit`, whose value counts only where `all` is 0. -/
theorem readUnit_agrees (all : Bool) (s : State) :
    ∃ unit n, (all = false → ∀ b, s.cm.unit = some b → unit = b) ∧
      readUnit all s = (unit, { s with unheldReads := n }) := by
  cases all with
  | true => exact ⟨0, s.unheldReads, nofun, rfl⟩
  | false =>
    obtain ⟨unit, n, h, e⟩ := readHeld_agrees s.cm.unit Config.unheldUnit s
    exact ⟨unit, n, fun _ => h, e⟩

/-! Every operation that reads `CM` answers a next state, with some operands that agree with what `CM` holds. -/

theorem execPId_next (s : State) : ∃ id n, (∀ b, s.cm.id = some b → id = b) ∧
    execPId s = .next (({ s with unheldReads := n } : State).passId id) := by
  obtain ⟨id, n, h, e⟩ := readHeld_agrees s.cm.id Config.unheldId s
  exact ⟨id, n, h, by rw [execPId, e]⟩

theorem execPAll_next (s : State) : ∃ all n, (∀ b, s.cm.all = some b → all = b) ∧
    execPAll s = .next (({ s with unheldReads := n } : State).passAll all) := by
  obtain ⟨all, n, h, e⟩ := readHeld_agrees s.cm.all Config.unheldAll s
  exact ⟨all, n, h, by rw [execPAll, e]⟩

theorem execPState_next (s : State) : ∃ d n, (∀ b, s.cm.state = some b → d = b) ∧
    execPState s = .next (({ s with unheldReads := n } : State).passState d) := by
  obtain ⟨d, n, h, e⟩ := readHeld_agrees s.cm.state (fun n => directionOf (Config.unheldUp n)) s
  exact ⟨d, n, h, by rw [execPState, e]⟩

theorem execPUnit_next (s : State) : ∃ all unit n, (∀ b, s.cm.all = some b → all = b) ∧
    (all = false → ∀ b, s.cm.unit = some b → unit = b) ∧
    execPUnit s = .next (({ s with unheldReads := n } : State).passUnit all unit) := by
  obtain ⟨all, n, h, e⟩ := readHeld_agrees s.cm.all Config.unheldAll s
  obtain ⟨unit, m, h', e'⟩ := readUnit_agrees all { s with unheldReads := n }
  exact ⟨all, unit, m, h, h', by rw [execPUnit, e, e']⟩

theorem execRepeatCount_next (s : State) : ∃ learn n, (∀ b, s.cm.learn = some b → learn = b) ∧
    execRepeatCount s = .next (({ s with unheldReads := n } : State).writeRepeat (repeatOf learn)) := by
  obtain ⟨learn, n, h, e⟩ := readHeld_agrees s.cm.learn Config.unheldLearn s
  exact ⟨learn, n, h, by rw [execRepeatCount, e]⟩

theorem execMkmsg_next (s : State) : ∃ id all d unit n, (∀ b, s.cm.id = some b → id = b) ∧
    (∀ b, s.cm.all = some b → all = b) ∧ (∀ b, s.cm.state = some b → d = b) ∧
    (all = false → ∀ b, s.cm.unit = some b → unit = b) ∧
    execMkmsg s = .next (({ s with unheldReads := n } : State).writeMessage (makeMessage id all unit d)) := by
  obtain ⟨id, n1, h1, e1⟩ := readHeld_agrees s.cm.id Config.unheldId s
  obtain ⟨all, n2, h2, e2⟩ := readHeld_agrees s.cm.all Config.unheldAll { s with unheldReads := n1 }
  obtain ⟨d, n3, h3, e3⟩ :=
    readHeld_agrees s.cm.state (fun n => directionOf (Config.unheldUp n)) { s with unheldReads := n2 }
  obtain ⟨unit, n4, h4, e4⟩ := readUnit_agrees all { s with unheldReads := n3 }
  exact ⟨id, all, d, unit, n4, h1, h2, h3, h4, by rw [execMkmsg, e1, e2, e3, e4]⟩

/-- What stands at the head of the port decides what is fetched. -/
theorem fetch_idle {s : State} (h : s.port = []) : fetch s = .idle := by simp [fetch, h]

theorem fetch_rejected {s : State} {w : PortWord} {rest : List PortWord} {why : Reject}
    (h : s.port = w :: rest) (hd : decode w = .error why) : fetch s = .rejected why := by simp [fetch, h, hd]

theorem fetch_operation {s : State} {w : PortWord} {rest : List PortWord} {i : Instr}
    (h : s.port = w :: rest) (hd : decode w = .ok i) : fetch s = .operation i rest := by simp [fetch, h, hd]

/-- A step that answers a next state is idle, or it runs the operation at the head of the port. -/
theorem step_next {s t : State} (h : step s = .next t) :
    (s.port = [] ∧ t = s) ∨
      ∃ w rest i, s.port = w :: rest ∧ decode w = .ok i ∧ exec i (s.takeWord rest) = .next t := by
  cases hp : s.port with
  | nil =>
    rw [step, fetch_idle hp] at h
    cases h
    exact .inl ⟨rfl, rfl⟩
  | cons w rest =>
    cases hd : decode w with
    | error why =>
      rw [step, fetch_rejected hp hd] at h
      cases h
    | ok i =>
      rw [step, fetch_operation hp hd] at h
      exact .inr ⟨w, rest, i, rfl, hd, h⟩

/-- `ENCODE` writes `K`, `PH`, the train with its flag, and the repeat count, and nothing else
(spec/41_encoder.md R159). -/
theorem encode_eq (c : CommandModel) (sel : BitVec 2) (s : State) :
    s.encode c sel = { s with
      k := passCoefs c s.k
      ph := 0
      train := some (scaleCoefs (Config.base sel) (passCoefs c s.k))
      trainValid := true
      repeatCount := some (repeatOf c.learn) } := by
  simp [State.encode, State.passStart, State.passClear, State.passId, State.passAll, State.passState,
    State.passUnit, State.passFooter, State.scaleTrain, State.endPass, State.publishTrain, State.writeRepeat,
    passCoefs]

/-- A valid `CREATE` as one update of the state. -/
theorem completeCreate_eq (c : CommandModel) (sel : BitVec 2) (s : State) :
    s.completeCreate c sel = { s with
      cm := CommandRegister.holding c
      cmValid := true
      k := passCoefs c s.k
      ph := 0
      train := some (scaleCoefs (Config.base sel) (passCoefs c s.k))
      trainValid := true
      repeatCount := some (repeatOf c.learn)
      msg := some (messageOf c)
      msgValid := true
      fail := false
      err := 0 } := by
  rw [State.completeCreate, encode_eq]; rfl

/-- Everything a `CREATE` can do: fail with a kind, complete with a command, or be refused for `up` with `down`. -/
theorem execCreate_cases (sel : BitVec 2) (raw : RawFields) (s : State) :
    (raw.wellFormed = false ∧ execCreate sel raw s = .refused (.rejectedWord .upAndDown)) ∨
    (raw.wellFormed = true ∧ ∃ k, validateFields raw = .failed k ∧
      execCreate sel raw s = .next ((s.openCreate (.failed k)).takeFailure k)) ∨
    (raw.wellFormed = true ∧ ∃ c, validateFields raw = .valid c ∧
      execCreate sel raw s = .next ((s.openCreate (.valid c)).completeCreate c sel)) := by
  cases hw : raw.wellFormed with
  | false => exact .inl ⟨rfl, by simp [execCreate, hw]⟩
  | true =>
    cases hv : validateFields raw with
    | failed k => exact .inr (.inl ⟨rfl, k, rfl, by simp [execCreate, hw, hv]⟩)
    | valid c => exact .inr (.inr ⟨rfl, c, rfl, by simp [execCreate, hw, hv]⟩)

/-- `PARSE` as one update of the state. -/
theorem execParse_eq (bits : BitArray) (s : State) :
    execParse bits s = .next { s with
      cm := CommandRegister.holding (decodeBitArray bits)
      cmValid := true
      msg := some (messageOf (decodeBitArray bits))
      msgValid := true
      fail := false
      err := 0 } := rfl

/-- `up` and `down` together are all that well-formedness excludes. -/
theorem wellFormed_iff (raw : RawFields) :
    raw.wellFormed = true ↔ ¬ (raw.upP = true ∧ raw.downP = true) := by
  cases hu : raw.upP <;> cases hd : raw.downP <;> simp [RawFields.wellFormed, hu, hd]

/-- A register that holds a whole command reads as that command. -/
@[simp] theorem model?_holding (c : CommandModel) : (CommandRegister.holding c).model? = some c := rfl

/-- A read of a slot of a valid train. -/
theorem readSlot_valid {s : State} {t : Train} {i : Nat} (hv : s.trainValid = true) (ht : s.train = some t)
    (hi : i < 132) : readSlot s i = .ok t[i] := by
  simp [readSlot, hv, ht, hi]

end Sys2Proof.Machine
end

