-- ==== Sys2Proof/Laws/PerInstr.lean ====
section
/-! SUPPORT. Statements made for each constructor of Instr. The family `WordFormat` says that the word the encoder
writes has the format that the operation's row has (spec/30_encoding.md R103, log entry 23). -/

namespace Sys2Proof.Laws.WordFormat

open Sys2Proof

/-- The encoding's format is the format of the operation's row. -/
def Statement (i : Instr) : Prop := (encode i).format = i.format

theorem nop : Statement .nop := rfl

theorem create (b : BitVec 2) (r : RawFields) : Statement (.create b r) := rfl

theorem parse (b : BitArray) : Statement (.parse b) := rfl

theorem validate (r : RawFields) : Statement (.validate r) := rfl

theorem pStart : Statement .pStart := rfl

theorem pClear : Statement .pClear := rfl

theorem pId : Statement .pId := rfl

theorem pAll : Statement .pAll := rfl

theorem pState : Statement .pState := rfl

theorem pUnit : Statement .pUnit := rfl

theorem pFooter : Statement .pFooter := rfl

theorem pScale (b : BitVec 2) : Statement (.pScale b) := rfl

theorem repeatCount : Statement .repeatCount := rfl

theorem xId (b : BitArray) : Statement (.xId b) := rfl

theorem xAll (b : BitArray) : Statement (.xAll b) := rfl

theorem xState (b : BitArray) : Statement (.xState b) := rfl

theorem xUnit (b : BitArray) : Statement (.xUnit b) := rfl

theorem mkmsg : Statement .mkmsg := rfl

theorem symLow (g : BitVec 6) : Statement (.symLow g) := rfl

theorem symHigh (g : BitVec 6) : Statement (.symHigh g) := rfl

theorem symStart : Statement .symStart := rfl

theorem symTailFooter : Statement .symTailFooter := rfl

end Sys2Proof.Laws.WordFormat
end

