-- ==== Sys2Proof/Laws/Validate.lean ====
section
/-! SUPPORT. The signals of validation in the terms of the rules, and the one way each outcome comes about. -/

namespace Sys2Proof.Machine

theorem allT_iff (raw : RawFields) : allT raw = true ↔ raw.allP = true ∧ raw.allV = true := by simp [allT]

theorem idOutside_iff (raw : RawFields) :
    idOutside raw = true ↔ raw.idV.toInt < 1 ∨ 67108863 < raw.idV.toInt := by
  rw [idOutside, Bool.or_eq_true, decide_eq_true_eq, decide_eq_true_eq]

theorem unitOutside_iff (raw : RawFields) :
    unitOutside raw = true ↔ raw.unitV.toInt < 0 ∨ 15 < raw.unitV.toInt := by
  rw [unitOutside, Bool.or_eq_true, decide_eq_true_eq, decide_eq_true_eq]

theorem argumentsMissing_iff (raw : RawFields) :
    argumentsMissing raw = true ↔
      raw.idP = false ∨ (raw.unitP = false ∧ ¬ allT raw = true) ∨ (raw.upP = false ∧ raw.downP = false) := by
  simp [argumentsMissing, stateP, or_assoc]

/-- A CommandModel comes only of fields that pass all four checks, and it is `commandOf` of them. -/
theorem validateFields_valid {raw : RawFields} {c : CommandModel} (h : validateFields raw = .valid c) :
    c = commandOf raw ∧ ¬ (allT raw = true ∧ raw.learnP = true) ∧ ¬ argumentsMissing raw = true ∧
      ¬ idOutside raw = true ∧ ¬ (¬ allT raw = true ∧ unitOutside raw = true) := by
  unfold validateFields at h
  split_ifs at h with h1 h2 h3 h4
  cases h
  exact ⟨rfl, by simpa using h1, h2, h3, by simpa using h4⟩

/-- A signed value that is not negative reads the same unsigned. -/
theorem toInt_of_nonneg {w : Nat} (x : BitVec w) (h : 0 ≤ x.toInt) : x.toInt = x.toNat := by
  rw [BitVec.toInt_eq_toNat_cond] at *
  have := x.isLt
  split_ifs at * <;> omega

end Sys2Proof.Machine
end

