-- ==== Sys2Proof/Tests/Slice0.lean ====
section
/-! SUPPORT. Tests of the model. The words, trains and outcomes are those of spec/95_test_vectors.md and of
spec/opcode_table.json, or written out from the layouts of spec/30_encoding.md; the last part shows for each statement
with hypotheses values that meet them together. -/

namespace Sys2Proof.Tests

open Sys2Proof Sys2Proof.Machine

/-! ### Helpers -/

/-- A command word. -/
def cw (n : Nat) : PortWord := { format := .cw, bits := BitVec.ofNat 80 n }

/-- No field present. -/
def noFields : RawFields where
  idP := false
  idV := 0
  unitP := false
  unitV := 0
  allP := false
  allV := false
  upP := false
  downP := false
  learnP := false

/-- The fields `id`, `unit` and `up` (CREATE id=.. unit=.. up). -/
def upFields (id unit : Nat) : RawFields :=
  { noFields with
    idP := true
    idV := BitVec.ofNat 32 id
    unitP := true
    unitV := BitVec.ofNat 32 unit
    upP := true }

/-- The fields `id`, `all=1` and `up`. -/
def allFields (id : Nat) : RawFields :=
  { noFields with idP := true, idV := BitVec.ofNat 32 id, allP := true, allV := true, upP := true }

/-- The command of vector V3. -/
def v3 : CommandModel := { id := 5, unit := 3, state := .up, all := false, learn := true }

/-- An all-devices command. -/
def everyone : CommandModel := { id := 2, unit := 0, state := .up, all := true, learn := false }

/-- The reset state with `c` in `CM`. -/
def loaded (c : CommandModel) : State := { State.reset with cm := CommandRegister.holding c, cmValid := true }

/-- The state after reset with one word at the port. -/
def presented (w : PortWord) : State := { State.reset with port := [w] }

/-- A step or an operation answers a next state, and `p` holds of it. -/
def next? (r : Result) (p : State → Bool) : Bool :=
  match r with
  | .next t => p t
  | .fault _ => false
  | .refused _ => false

/-- The operation is refused for this reason. -/
def refusedFor (r : Result) (why : Reject) : Bool :=
  match r with
  | .next _ => false
  | .fault _ => false
  | .refused q => decide (q = .rejectedWord why)

/-- The coefficients of `K` from slot `i` on. -/
def coefs (s : State) (i n : Nat) : List Coef := (List.range n).map fun j => s.k.getD (i + j) .one

/-! ### Well-formedness: one ill-formed term for each check -/

theorem test_wf_create_up_down : (Instr.create 0 { upFields 5 3 with downP := true }).wellFormed = false := by decide
theorem test_wf_validate_up_down : (Instr.validate { upFields 5 3 with downP := true }).wellFormed = false := by decide
theorem test_wf_symLow_group_33 : (Instr.symLow 33).wellFormed = false := by decide
theorem test_wf_symHigh_group_32 : (Instr.symHigh 32).wellFormed = false := by decide

/-! ### Decoding: a word for every constructor -/

/-- Program 2, step 3. -/
theorem test_decode_nop : decode (cw 0x00000000000000000000) = .ok .nop := by decide
/-- A3. -/
theorem test_decode_create : decode (cw 0x00000002000000050571) =
    .ok (.create 0 { upFields 5 2 with allP := true, learnP := true }) := by decide
/-- V2 (base 251) and A13 (`unit=-1 down`, a negative value). -/
theorem test_decode_create_base_and_sign :
    decode (cw 0x0000000F03FFFFFF0135) = .ok (.create 1 (upFields 67108863 15)) ∧
    decode (cw 0xFFFFFFFF000000050231) =
      .ok (.create 0 { upFields 5 0xFFFFFFFF with upP := false, downP := true }) := by decide
/-- B3. -/
theorem test_decode_parse : decode (cw 0x00000000380000050002) = .ok (.parse 0x38000005) := by decide
/-- A23, `op = 11`, and a reserved bit in each place of `CW[15:11]`. -/
theorem test_decode_refusals :
    decode (cw 0x00000003000000050331) = .error .upAndDown ∧ decode (cw 0x3) = .error .reservedOp ∧
    ∀ b ∈ [11, 12, 13, 14, 15], decode (cw (2 ^ b)) = .error .reservedBits := by decide
/-- The STEP rows, numbered as in log entry 2; the raw fields stand as in A3. -/
theorem test_decode_validate : decode { format := .step, bits := 0x00000002000000050570 } =
    .ok (.validate { upFields 5 2 with allP := true, learnP := true }) := by decide
theorem test_decode_repeatCount : decode { format := .step, bits := 0b01 } = .ok .repeatCount := by decide
theorem test_decode_mkmsg : decode { format := .step, bits := 0b10 } = .ok .mkmsg := by decide
/-- Each bit that a STEP word does not use, and the code that names no row. -/
theorem test_decode_step_refusals :
    ([0x4, 0x8, 0x800, 0x1000, 0x2000, 0x4000, 0x8000, 0x5, 0x801, 0x10001, 0x800000000001, 0x80000000000000000001, 0x6,
      0x802, 0x10002, 0x80000000000000000002] : List (BitVec 80)).all
        (fun b => decode { format := .step, bits := b } == .error .reservedInternal) = true ∧
    decode { format := .step, bits := 0b11 } = .error .reservedStep := by decide +kernel
/-- The pass indices of the table, and P_SCALE after them with `BASE_SEL = 2` (log entry 2). -/
theorem test_decode_pStart : decode { format := .pass, bits := 0b000 } = .ok .pStart := by decide
theorem test_decode_pClear : decode { format := .pass, bits := 0b001 } = .ok .pClear := by decide
theorem test_decode_pId : decode { format := .pass, bits := 0b010 } = .ok .pId := by decide
theorem test_decode_pAll : decode { format := .pass, bits := 0b011 } = .ok .pAll := by decide
theorem test_decode_pState : decode { format := .pass, bits := 0b100 } = .ok .pState := by decide
theorem test_decode_pUnit : decode { format := .pass, bits := 0b101 } = .ok .pUnit := by decide
theorem test_decode_pFooter : decode { format := .pass, bits := 0b110 } = .ok .pFooter := by decide
theorem test_decode_pScale : decode { format := .pass, bits := 0b10111 } = .ok (.pScale 2) := by decide
theorem test_decode_pass_refusals : decode { format := .pass, bits := 0b1110 } = .error .reservedInternal ∧
    decode { format := .pass, bits := 0b100111 } = .error .reservedInternal := by decide
/-- The bit array of B3 under the four extractions. -/
theorem test_decode_xId : decode { format := .bits32, bits := 0x038000005 } = .ok (.xId 0x38000005) := by decide
theorem test_decode_xAll : decode { format := .bits32, bits := 0x138000005 } = .ok (.xAll 0x38000005) := by decide
theorem test_decode_xState : decode { format := .bits32, bits := 0x238000005 } = .ok (.xState 0x38000005) := by decide
theorem test_decode_xUnit : decode { format := .bits32, bits := 0x338000005 } = .ok (.xUnit 0x38000005) := by decide
/-- The class codes of the table, with a group above them. -/
theorem test_decode_symLow : decode { format := .sym, bits := 0b10000000000001 } = .ok (.symLow 32) := by decide
theorem test_decode_symHigh : decode { format := .sym, bits := 0b01111100010000 } = .ok (.symHigh 31) := by decide
theorem test_decode_symStart : decode { format := .sym, bits := 0b0010 } = .ok .symStart := by decide
theorem test_decode_symTailFooter : decode { format := .sym, bits := 0b0011 } = .ok .symTailFooter := by decide
/-- `(1,1,1,1)` is no symbol, and no symbol stands past the overlays' last group. -/
theorem test_decode_symbol_refusals :
    decode { format := .sym, bits := 0 } = .error .notASymbol ∧
    decode { format := .sym, bits := 0b10000000010000 } = .error .groupOutOfFrame := by decide

/-- Table words: 16 and 80 bits of a command word, a class code and a pass index of one byte, 32 bits. -/
theorem test_decodeTableWord :
    decodeTableWord 16 1 = some (.create 0 noFields) ∧ decodeTableWord 80 0x00000000380000050002 = some (.parse 0x38000005) ∧
    decodeTableWord 8 16 = some (.symHigh 0) ∧ decodeTableWord 8 5 = some .pUnit ∧
    decodeTableWord 8 7 = some (.pScale 0) ∧ decodeTableWord 32 7 = some (.xId 7) ∧ decodeTableWord 16 3 = none := by decide

/-- The first operation after reset is the one `withFetchWord` places (vector B3). -/
theorem test_withFetchWord :
    next? (step (State.reset.withFetchWord 80 0x00000000380000050002)) (fun t => t.cm == CommandRegister.holding { v3 with learn := false }) =
      true := by decide +kernel

/-- Every operation that reads `CM` runs right after reset, where `CM` holds no value. -/
theorem test_runs_after_reset : ∀ i ∈ [Instr.pId, .pAll, .pState, .pUnit, .repeatCount, .mkmsg],
    next? (step (presented (encode i))) (fun _ => true) = true := by
  decide +kernel

/-! ### One step of each operation -/

theorem test_nop : next? (step (presented (cw 0))) (fun t => t == State.reset) = true := by decide +kernel

/-- A1 to A22: the `ERR` each command ends with, and `FAIL` beside it. -/
theorem test_create_outcomes :
    ([(0x4C1, 1), (0x505D1, 1), (0x2000000050571, 0), (0x3000000000121, 2), (0x50111, 2), (0x50151, 2),
      (0x3000000050031, 2), (0x131, 3), (0xFFFFFFFF0131, 3), (0x40000000131, 3), (0x10131, 0), (0x3FFFFFF0131, 0),
      (0xFFFFFFFF000000050231, 4), (0x10000000050231, 4), (0x50231, 0), (0xF000000050231, 0), (0x10000000000131, 3),
      (0x111, 2), (0x630000000501F1, 0), (0x502D1, 0), (0x1D1, 3), (0x3000000050531, 0)] : List (Nat × BitVec 3)).all
      (fun v => next? (step (presented (cw v.1))) fun t => t.err == v.2 && t.fail == (v.2 != 0) &&
        t.trainValid == (v.2 == 0) && t.log.length == if v.2 = 0 then 0 else 1) = true := by
  decide +kernel

/-- V1 to V6: the frame word of the train at its base, and the repeat count. -/
theorem test_create_trains :
    ([(0x10231, 0, 0x00000001, 10), (0xF03FFFFFF0135, 1, 0xFBFFFFFF, 10), (0x3000000050539, 2, 0x38000005, 40),
      (0x90000000201FD, 3, 0x0C000002, 10), (0x8020000000231, 0, 0x82000000, 10), (0xA0012D6870131, 0, 0xA812D687, 10)] :
      List (Nat × BitVec 2 × BitArray × BitVec 6)).all
      (fun v => next? (step (presented (cw v.1))) fun t => t.repeatCount == some v.2.2.2 &&
        (t.train.bind fun tr => collapse tr (Config.base v.2.1)) == some v.2.2.1) = true := by
  decide +kernel

/-- B8: the record has `all` and no `unit`, and `CM.unit` keeps the bits; B7: a command with `id = 0` is accepted. -/
theorem test_parse :
    next? (step (presented (cw 0xFFFFFFFF0002))) (fun t => t.cm.unit == some 15 && t.cm.learn == some false &&
      t.msg == some { id := 67108863, hasUnit := false, unit := none, hasAll := true, all := some 1, state := .up }) = true ∧
    next? (step (presented (cw 0x0002))) (fun t => t.cmValid && !t.fail &&
      t.msg == some { id := 0, hasUnit := true, unit := some 0, hasAll := false, all := none, state := .down }) = true := by
  decide +kernel

/-- A17: `id` is checked before `unit`; A19: a `unit` out of range is zeroed in all-devices mode. -/
theorem test_validate :
    next? (exec (.validate (upFields 0 16)) State.reset) (fun t => t.verdict == some (.failed .idOutOfRange)) = true ∧
    next? (exec (.validate { allFields 5 with unitP := true, unitV := 99 }) State.reset) (fun t =>
      t.verdict == some (.valid { id := 5, unit := 0, state := .up, all := true, learn := false })) = true := by
  decide +kernel

/-- The pass trace of section 3.4. -/
theorem test_pStart : next? (exec .pStart State.reset) (fun t => coefs t 0 3 == [.one, .startMult, .one]) = true := by
  decide +kernel
theorem test_pClear : next? (exec .pClear State.reset) (fun t => coefs t 0 6 == [.one, .one, .one, .one, .one, .mult] &&
    coefs t 126 6 == [.one, .one, .one, .mult, .one, .one]) = true := by decide +kernel
theorem test_pId : next? (exec .pId (loaded v3)) (fun t =>
    coefs t 2 12 == [.one, .mult, .one, .one, .one, .one, .one, .one, .one, .mult, .one, .one]) = true := by decide +kernel
theorem test_pAll : next? (exec .pAll (loaded everyone)) (fun t =>
    coefs t 105 6 == [.one, .one, .mult, .one, .one, .one]) = true := by decide +kernel
theorem test_pState : next? (exec .pState (loaded v3)) (fun t =>
    coefs t 109 6 == [.one, .one, .mult, .one, .one, .one]) = true := by decide +kernel
theorem test_pUnit : next? (exec .pUnit (loaded v3)) (fun t =>
    coefs t 114 9 == [.one, .mult, .one, .one, .one, .mult, .one, .one, .one]) = true := by decide +kernel
theorem test_pUnit_all : next? (exec .pUnit (loaded { everyone with unit := 15 })) (fun t => t.k == State.reset.k) = true := by
  decide +kernel
theorem test_pFooter : next? (exec .pFooter State.reset) (fun t => coefs t 130 2 == [.one, .pulseDiv]) = true := by
  decide +kernel
/-- The table under R148: 1, 5 and 9 times 251. -/
theorem test_pScale : next? (exec (.pScale 1) { State.reset with k := put State.reset.k 0 [.one, .mult, .startMult] }) (fun t =>
    t.trainValid && t.train.map (fun tr => [tr[0], tr[1], tr[2]]) == some [251, 1255, 2259]) = true := by decide +kernel
theorem test_repeatCount : next? (exec .repeatCount (loaded v3)) (fun t => t.repeatCount == some 40) = true ∧
    next? (exec .repeatCount (loaded everyone)) (fun t => t.repeatCount == some 10) = true := by decide +kernel

/-- B5 and B12, B4, B2, B11. -/
theorem test_xId : next? (exec (.xId 0x82000000) State.reset) (fun t => t.cm.id == some 33554432) = true := by decide +kernel
theorem test_xAll : next? (exec (.xAll 0x0C000002) State.reset) (fun t => t.cm.all == some true) = true := by decide +kernel
theorem test_xState : next? (exec (.xState 0xFBFFFFFF) State.reset) (fun t => t.cm.state == some .up) = true := by
  decide +kernel
theorem test_xUnit : next? (exec (.xUnit 0x80000000) State.reset) (fun t => t.cm.unit == some 8) = true := by decide +kernel

/-- B3 and B4. -/
theorem test_mkmsg : next? (exec .mkmsg (loaded v3)) (fun t => t.msg ==
    some { id := 5, hasUnit := true, unit := some 3, hasAll := false, all := none, state := .up }) = true ∧
    next? (exec .mkmsg (loaded everyone)) (fun t => t.msg ==
      some { id := 2, hasUnit := false, unit := none, hasAll := true, all := some 1, state := .up }) = true := by
  decide +kernel

/-- `LOW` in group 32 keeps its first two slots only. -/
theorem test_symLow : next? (exec (.symLow 0) State.reset) (fun t => coefs t 2 4 == [.one, .one, .one, .mult]) = true ∧
    next? (exec (.symLow 32) { State.reset with k := Vector.replicate 132 .mult }) (fun t =>
      coefs t 129 3 == [.mult, .one, .one]) = true := by decide +kernel
theorem test_symHigh : next? (exec (.symHigh 31) State.reset) (fun t =>
    coefs t 125 6 == [.one, .one, .mult, .one, .one, .one]) = true := by decide +kernel
theorem test_symStart : next? (exec .symStart State.reset) (fun t => coefs t 0 2 == [.one, .startMult]) = true := by
  decide +kernel
theorem test_symTailFooter : next? (exec .symTailFooter State.reset) (fun t =>
    coefs t 129 3 == [.one, .one, .pulseDiv]) = true := by decide +kernel

/-- The collapse refuses V1 with a group `(1,1,1,1)`, and V1 at another base (section 4). -/
theorem test_collapse_refuses :
    collapse (scaleCoefs 315 (put (passCoefs { v3 with id := 1 } State.reset.k) 2 [.one, .one, .one, .one])) 315 = none ∧
    collapse (scaleCoefs 315 (passCoefs { v3 with id := 1 } State.reset.k)) 251 = none := by decide +kernel

/-! ### Values that meet the hypotheses of the statements -/

theorem witness_StepRunsTheDecodedOperation :
    (presented (cw 0x10131)).port = cw 0x10131 :: [] ∧ decode (cw 0x10131) = .ok (.create 0 (upFields 1 0)) ∧
    State.reset.port = [] := by decide

/-- One command word for each branch of the dispatch. -/
theorem witness_CommandWordsAreDispatchedInOrder : ∀ n ∈ [0x800, 0x8000, 0x3, 0x0, 0x380000050002, 0x3000000050331, 0x10131],
    (presented (cw n)).port = { format := .cw, bits := BitVec.ofNat 80 n } :: [] := by decide

theorem witness_UnusedFieldsAreIgnored :
    (let v : CommandWord := 0xFFFFFFFF38000005078E
     let w : CommandWord := 0x380000050002
     v.extractLsb' 0 2 = 0b10 ∧ w.extractLsb' 0 2 = 0b10 ∧ v.extractLsb' 11 5 = w.extractLsb' 11 5 ∧
       v.extractLsb' 16 32 = w.extractLsb' 16 32) ∧
    (let v : CommandWord := 0xFFFFFFFFFFFFFFFF07FC
     let w : CommandWord := 0
     v.extractLsb' 0 2 = 0b00 ∧ w.extractLsb' 0 2 = 0b00 ∧ v.extractLsb' 11 5 = w.extractLsb' 11 5) ∧
    (let raw := { allFields 7 with unitV := 99 }
     let other := allFields 7
     raw.idP = other.idP ∧ raw.unitP = other.unitP ∧ raw.allP = other.allP ∧ raw.upP = other.upP ∧
       raw.downP = other.downP ∧ raw.learnP = other.learnP ∧ (raw.idP = true → raw.idV = other.idV) ∧
       (raw.unitP = true → raw.unitV = other.unitV) ∧ (raw.allP = true → raw.allV = other.allV) ∧
       raw ≠ other) := by decide

theorem witness_DecodingAnEncodingGivesItBack : ∀ i ∈ [Instr.create 3 (upFields 5 3), .validate (allFields 5), .symLow 32,
    .symHigh 31, .pUnit, .xUnit 0xFFFFFFFF, .mkmsg], i.wellFormed = true := by decide

theorem witness_AcceptedWordsAreWellFormed :
    decode (cw 0x10131) = .ok (.create 0 (upFields 1 0)) ∧
    (decode { format := .pass, bits := 6 } = .ok .pFooter ∧ Format.pass ≠ .cw) ∧
    (decode { format := .step, bits := 0x10130 } = .ok (.validate (upFields 1 0)) ∧ Format.step ≠ .cw) := by decide

/-- Every outcome of a validation has fields that reach it: A1, A18, A10, A14, A12 and A19. -/
theorem witness_ValidateReportsFirstFailingCheck :
    validateFields { noFields with allP := true, allV := true, learnP := true } = .failed .conflictingOptions ∧
    validateFields { noFields with idP := true, upP := true } = .failed .missingArguments ∧
    validateFields (upFields 67108864 0) = .failed .idOutOfRange ∧
    validateFields { upFields 5 16 with upP := false, downP := true } = .failed .unitOutOfRange ∧
    validateFields (upFields 67108863 0) = .valid { id := 67108863, unit := 0, state := .up, all := false, learn := false } ∧
    validateFields { allFields 5 with unitP := true, unitV := 99 } =
      .valid { id := 5, unit := 0, state := .up, all := true, learn := false } := by decide

theorem witness_UpWithDownIsRefused :
    (let raw := { upFields 5 3 with downP := true }
     raw.upP = true ∧ raw.downP = true) := by decide

theorem witness_ValidatedCommandsMeetTheirInvariants :
    validateFields (upFields 1 15) = .valid { id := 1, unit := 15, state := .up, all := false, learn := false } := by decide

/-- Fields of a failing `CREATE`, at the boundary of each range. -/
theorem witness_FailedCreateTakesTheFailure :
    (∀ raw ∈ [upFields 0 0, upFields 67108864 0, upFields 0xFFFFFFFF 0],
      ¬ (raw.upP = true ∧ raw.downP = true) ∧ validateFields raw = .failed .idOutOfRange) ∧
    (∀ raw ∈ [upFields 5 16, upFields 5 0xFFFFFFFF],
      ¬ (raw.upP = true ∧ raw.downP = true) ∧ validateFields raw = .failed .unitOutOfRange) ∧
    (∀ raw ∈ [{ allFields 5 with learnP := true }],
      ¬ (raw.upP = true ∧ raw.downP = true) ∧ validateFields raw = .failed .conflictingOptions) ∧
    (∀ raw ∈ [{ upFields 5 0 with unitP := false }],
      ¬ (raw.upP = true ∧ raw.downP = true) ∧ validateFields raw = .failed .missingArguments) := by decide

/-- Fields of a succeeding `CREATE`, outside and inside all-devices mode. -/
theorem witness_SuccessfulCreateWritesEveryResult :
    (¬ ((upFields 67108863 15).upP = true ∧ (upFields 67108863 15).downP = true) ∧ validateFields (upFields 67108863 15) =
      .valid { id := 67108863, unit := 15, state := .up, all := false, learn := false }) ∧
    (¬ ((allFields 2).upP = true ∧ (allFields 2).downP = true) ∧ validateFields (allFields 2) = .valid everyone) := by decide

/-- The same hypotheses serve these statements. -/
theorem witness_CreateIsItsRowsInOrder :
    ¬ ((upFields 5 3).upP = true ∧ (upFields 5 3).downP = true) ∧ validateFields (upFields 5 3) =
      .valid { v3 with learn := false } := by decide
theorem witness_ProducedTrainsHaveTheFixedFrame :
    ¬ ((upFields 5 3).upP = true ∧ (upFields 5 3).downP = true) ∧ validateFields (upFields 5 3) =
      .valid { v3 with learn := false } := witness_CreateIsItsRowsInOrder
theorem witness_ProducedGroupsFollowTheirBit :
    (¬ ((upFields 5 3).upP = true ∧ (upFields 5 3).downP = true) ∧ validateFields (upFields 5 3) =
      .valid { v3 with learn := false }) ∧ (0 < 32 ∧ frameBit v3 0 = true) ∧ 31 < 32 ∧ frameBit v3 31 = false := by decide
theorem witness_EveryTrainTakesTheSameTime :
    ¬ ((allFields 2).upP = true ∧ (allFields 2).downP = true) ∧ validateFields (allFields 2) = .valid everyone := by decide
theorem witness_ParsedRecordIsTheCreatedRecord :
    ¬ ((allFields 2).upP = true ∧ (allFields 2).downP = true) ∧ validateFields (allFields 2) = .valid everyone :=
  witness_EveryTrainTakesTheSameTime
theorem witness_ResultsForgetEarlierTransactions :
    ¬ ((upFields 0 16).upP = true ∧ (upFields 0 16).downP = true) := by decide
theorem witness_FailuresDependOnTheFieldsAlone :
    ¬ ((upFields 0 16).upP = true ∧ (upFields 0 16).downP = true) ∧
      validateFields (upFields 0 16) = .failed .idOutOfRange := by decide

theorem witness_LearnShowsInTheRepeatCountAlone :
    ¬ ((upFields 5 3).upP = true ∧ (upFields 5 3).downP = true) ∧
    validateFields { upFields 5 3 with learnP := true } = .valid v3 ∧
    validateFields { upFields 5 3 with learnP := false } = .valid { v3 with learn := false } := by decide

/-- A set bit at each end of the field, an unset one, and slots on either side of it. -/
theorem witness_IdPassOverlaysItsSetBits :
    (loaded { v3 with id := 0x2000001 }).cm.id = some 0x2000001 ∧ (0 < 26 ∧ (0x2000001#26).getLsbD 0 = true) ∧
    (25 < 26 ∧ (0x2000001#26).getLsbD 25 = true) ∧ 1 < 2 ∧ 106 ≤ 131 ∧ (0x2000001#26).getLsbD ((6 - 2) / 4) = false := by
  decide

theorem witness_AllAndStatePassesOverlayTheirBit :
    (loaded everyone).cm.all = some true ∧ (loaded v3).cm.all = some false ∧ (loaded v3).cm.state = some .up ∧
    (loaded { v3 with state := .down }).cm.state = some .down := by decide

theorem witness_UnitPassOverlaysOutsideAllMode :
    ((loaded { v3 with unit := 9 }).cm.all = some false ∧ (loaded { v3 with unit := 9 }).cm.unit = some 9 ∧
      (9#4).getLsbD 0 = true ∧ (9#4).getLsbD 3 = true ∧ (9#4).getLsbD ((118 - 114) / 4) = false ∧ 113 < 114 ∧ 130 ≤ 130) ∧
    (loaded { everyone with unit := 15 }).cm.all = some true := by decide

theorem witness_RepeatCountFollowsLearn :
    (loaded v3).cm.learn = some true ∧ (loaded everyone).cm.learn = some false := by decide

theorem witness_StepsThatReadTheCommandAlwaysRun :
    Instr.pId ∈ [Instr.pId, .pAll, .pState, .pUnit, .repeatCount, .mkmsg] ∧
    Instr.mkmsg ∈ [Instr.pId, .pAll, .pState, .pUnit, .repeatCount, .mkmsg] ∧ State.reset.cm.id = none ∧
    State.reset.cm.learn = none ∧ (loaded v3).cm.unit = some 3 := by decide

theorem witness_DisjointPassesCommute :
    startCoefs ∈ [startCoefs, idCoefs 5, allCoefs true, stateCoefs .up, unitCoefs false 3, footerCoefs] ∧
    footerCoefs ∈ [startCoefs, idCoefs 5, allCoefs true, stateCoefs .up, unitCoefs false 3, footerCoefs] :=
  ⟨.head _, .tail _ (.tail _ (.tail _ (.tail _ (.tail _ (.head _)))))⟩

theorem witness_DecodingIsABijection : everyone.learn = false := by decide

theorem witness_MessageRecordFollowsTheCommand :
    ((loaded v3).cm.id = some 5 ∧ (loaded v3).cm.all = some false ∧ (loaded v3).cm.state = some .up ∧
      (loaded v3).cm.unit = some 3) ∧
    ((loaded everyone).cm.id = some 2 ∧ (loaded everyone).cm.all = some true ∧ (loaded everyone).cm.state = some .up) := by
  decide

theorem witness_UnitCommandsSurviveTheRoundTrip :
    ¬ ((upFields 5 3).upP = true ∧ (upFields 5 3).downP = true) ∧
    validateFields (upFields 5 3) = .valid { v3 with learn := false } ∧ { v3 with learn := false }.all = false := by decide

theorem witness_AllCommandsDecodeWithUnitZero :
    (let raw := { allFields 2 with unitP := true, unitV := 9 }
     ¬ (raw.upP = true ∧ raw.downP = true) ∧ validateFields raw = .valid everyone ∧ raw.allP = true ∧ raw.allV = true) := by
  decide

theorem witness_ReadingNoValueIsAFault :
    State.reset.trainValid = false ∧ State.reset.cmValid = false ∧ State.reset.msgValid = false := by decide

/-- The state after a `CREATE` of `v3` at base 315, its train written slot by slot. -/
def created : State :=
  { loaded { v3 with learn := false } with
    train := some (Vector.ofFn fun i => duration (Config.base 0) (closedCoef { v3 with learn := false } i.val))
    trainValid := true
    repeatCount := some 10
    msg := some (messageOf { v3 with learn := false })
    msgValid := true }

theorem created_train : ∀ i : Fin 132, ((Vector.ofFn fun i : Fin 132 =>
    duration (Config.base 0) (closedCoef { v3 with learn := false } i.val))[i]).toNat =
      (closedCoef { v3 with learn := false } i.val).value * Config.base 0 := by
  intro i
  rw [Fin.getElem_fin, Vector.getElem_ofFn, duration_toNat]

theorem created_settled : created.Settled where
  command_absent := by intro h; cases h
  command_held := fun _ => ⟨{ v3 with learn := false }, rfl, rfl⟩
  message_flag := rfl
  message_absent := by intro h; cases h
  train_absent := by intro h; cases h
  train_held := fun _ => ⟨_, _, rfl, rfl, { v3 with learn := false }, 0, by decide, by decide, created_train⟩
  failure_leaves_nothing := by intro h; cases h
  err_is_code := by decide
  fail_is_err := by decide
  between_passes := rfl

theorem witness_ValidRegistersCanBeRead :
    created.Settled ∧ created.trainValid = true ∧ 131 < 132 ∧ created.cmValid = true :=
  ⟨created_settled, rfl, by decide, rfl⟩

theorem witness_BufferGivesItsFirst32Bits :
    (List.replicate 31 true).length < 32 ∧ 32 ≤ (List.replicate 32 true).length ∧ 31 < 32 ∧
    32 ≤ (List.replicate 40 false).length := by decide

theorem witness_OnlyFailedCreatesFireTheLog :
    (∃ t, exec (.create 0 (upFields 0 16)) State.reset = .next t) ∧
    validateFields (upFields 0 16) = .failed .idOutOfRange ∧ (∃ t, exec (.parse 5) State.reset = .next t) ∧
    ∀ (sel : BitVec 2) (raw : RawFields) (k : FailKind), Instr.parse 5 = .create sel raw → validateFields raw ≠ .failed k :=
  ⟨⟨_, rfl⟩, by decide, ⟨_, rfl⟩, fun _ _ _ h => nomatch h⟩

theorem witness_OnlyCreateWritesTheTrain :
    (∃ t, exec (.parse 5) created = .next t) ∧ ∀ (sel : BitVec 2) (raw : RawFields),
      Instr.parse 5 ≠ .create sel raw ∧ Instr.parse 5 ≠ .pScale sel ∧ Instr.parse 5 ≠ .repeatCount :=
  ⟨⟨_, rfl⟩, fun _ _ => ⟨nofun, nofun, nofun⟩⟩

theorem reset_sound : (presented (cw 0x131)).Sound where
  command_held := by intro h; cases h
  train_held := rfl
  message_held := by intro h; cases h
  err_is_code := by decide
  fail_is_err := by decide
  ph_is_index := by decide
  message_formed := by intro m h; cases h
  train_formed := by intro t h; cases h

/-- A8 at the port of the reset state: the step answers a next state. -/
theorem witness_EveryStepKeepsSoundness :
    (presented (cw 0x131)).Sound ∧ ∃ t, step (presented (cw 0x131)) = .next t := ⟨reset_sound, ⟨_, rfl⟩⟩

/-- The created state with a `PARSE` at its port. -/
def createdParse : State := { created with port := [cw 0x380000050002] }

theorem createdParse_settled : createdParse.Settled where
  command_absent := created_settled.command_absent
  command_held := created_settled.command_held
  message_flag := created_settled.message_flag
  message_absent := created_settled.message_absent
  train_absent := created_settled.train_absent
  train_held := created_settled.train_held
  failure_leaves_nothing := created_settled.failure_leaves_nothing
  err_is_code := created_settled.err_is_code
  fail_is_err := created_settled.fail_is_err
  between_passes := created_settled.between_passes

theorem witness_CommandWordsKeepTheBlockSettled :
    createdParse.Settled ∧ (∀ w ∈ createdParse.port, w.format = .cw) ∧ ∃ t, step createdParse = .next t :=
  ⟨createdParse_settled, (by decide), ⟨_, rfl⟩⟩

/-- A station over the created state. -/
def station (reading : Option Nat) : Station := { block := created, reading := reading, sent := [] }

theorem witness_TransmitterReadsTheWholeTrainInOrder :
    (station none).block.trainValid = true ∧ (∃ train, (station none).block.train = some train) ∧
    (station none).reading = none := ⟨rfl, ⟨_, rfl⟩, rfl⟩

theorem witness_CreateWhileReadingIsAFault :
    ({ block := State.reset, reading := none, sent := [] } : Station).block.trainValid = false ∧
    ((station (some 1)).reading.isSome = true ∧ (station (some 131)).reading.isSome = true ∧
      decode (cw 0x10131) = .ok (.create 0 (upFields 1 0))) ∧
    (decode (cw 0) = .ok .nop ∧ decode (cw 0x380000050002) = .ok (.parse 0x38000005)) ∧
    ((station none).reading = none ∧
      ∃ b, step { (station none).block with port := [cw 0x380000050002] } = .next b) :=
  ⟨rfl, by decide, by decide, rfl, ⟨_, rfl⟩⟩

end Sys2Proof.Tests
end

section
/-! What survives from one transaction to the next (spec/10_state.md R30, R33, R37): the descriptor in every state,
the log except where a `CREATE` fails, and nothing that a result of a `CREATE` or a `PARSE` is made of. -/

namespace Sys2Proof.Machine

/-! ### `CREATE` and `PARSE` as operations -/

theorem exec_create (sel : BitVec 2) (raw : RawFields) (s : State) :
    exec (.create sel raw) s = execCreate sel raw s := rfl

theorem exec_parse (bits : BitArray) (s : State) : exec (.parse bits) s = execParse bits s := rfl

theorem exec_create_of_failed {raw : RawFields} {k : FailKind} (hw : raw.wellFormed = true)
    (hv : validateFields raw = .failed k) (sel : BitVec 2) (s : State) :
    exec (.create sel raw) s = .next ((s.openCreate (.failed k)).takeFailure k) := by
  simp [exec_create, execCreate, hw, hv]

theorem exec_create_of_valid {raw : RawFields} {c : CommandModel} (hw : raw.wellFormed = true)
    (hv : validateFields raw = .valid c) (sel : BitVec 2) (s : State) :
    exec (.create sel raw) s = .next ((s.openCreate (.valid c)).completeCreate c sel) := by
  simp [exec_create, execCreate, hw, hv]

/-! ### `K` keeps nothing of an earlier transaction -/

/-- The start pass writes slots 0 and 1 and the clear pass all the others, so nothing of the `K` before is left. -/
theorem clearCoefs_startCoefs_forgets (k k' : Coefs) : clearCoefs (startCoefs k) = clearCoefs (startCoefs k') := by
  ext i hi
  simp only [clearCoefs_get, startCoefs_get]
  by_cases hlow : i < 2
  · have hi01 : i = 0 ∨ i = 1 := by omega
    rcases hi01 with rfl | rfl <;> simp
  · simp [hlow]

theorem passCoefs_forgets (c : CommandModel) (k k' : Coefs) : passCoefs c k = passCoefs c k' := by
  rw [passCoefs, clearCoefs_startCoefs_forgets k k', passCoefs]

/-! ### Who fires the log -/

/-- What a `CREATE` that answers a next state does to the log, by the outcome of its validation. -/
theorem exec_create_log {sel : BitVec 2} {raw : RawFields} {s t : State}
    (h : exec (.create sel raw) s = .next t) :
    (∃ k, validateFields raw = .failed k ∧ t.log = s.log ++ [{ severity := .error, kind := k }]) ∨
      (∃ c, validateFields raw = .valid c ∧ t.log = s.log) := by
  rw [exec_create] at h
  rcases execCreate_cases sel raw s with ⟨-, e⟩ | ⟨-, k, hv, e⟩ | ⟨-, c, hv, e⟩ <;> rw [e] at h
  · cases h
  · cases h
    exact .inl ⟨k, hv, by simp⟩
  · cases h
    exact .inr ⟨c, hv, by simp [completeCreate_eq]⟩

theorem execValidate_log {raw : RawFields} {s t : State} (h : execValidate raw s = .next t) : t.log = s.log := by
  unfold execValidate at h
  split at h <;> cases h
  rfl

/-- An operation's next state is one state, so its log can be read off any account of that state. -/
theorem log_eq_of_next {r : Result} {s t u : State} (e : r = .next u) (hu : u.log = s.log) (h : r = .next t) :
    t.log = s.log := by
  cases e.symm.trans h
  exact hu

/-- No operation but `CREATE` fires the log. -/
theorem exec_log_of_not_create {i : Instr} {s t : State} (h : exec i s = .next t)
    (hi : ∀ sel raw, i ≠ .create sel raw) : t.log = s.log := by
  cases i with
  | create sel raw => exact absurd rfl (hi sel raw)
  | validate raw => exact execValidate_log h
  | pId =>
    obtain ⟨id, n, -, e⟩ := execPId_next s
    exact log_eq_of_next e rfl h
  | pAll =>
    obtain ⟨all, n, -, e⟩ := execPAll_next s
    exact log_eq_of_next e rfl h
  | pState =>
    obtain ⟨d, n, -, e⟩ := execPState_next s
    exact log_eq_of_next e rfl h
  | pUnit =>
    obtain ⟨all, unit, n, -, -, e⟩ := execPUnit_next s
    exact log_eq_of_next e rfl h
  | repeatCount =>
    obtain ⟨learn, n, -, e⟩ := execRepeatCount_next s
    exact log_eq_of_next e rfl h
  | mkmsg =>
    obtain ⟨id, all, d, unit, n, -, -, -, -, e⟩ := execMkmsg_next s
    exact log_eq_of_next e rfl h
  | nop | parse | pStart | pClear | pFooter | pScale | xId | xAll | xState | xUnit | symLow | symHigh | symStart
  | symTailFooter =>
    cases h
    rfl

/-! ### The statements -/

/-- Settles O16: the state before enters a `CREATE`'s results only through `K`, which the passes overwrite whole, and
a `PARSE`'s not at all. -/
theorem resultsForgetEarlierTransactions : Obligations.ResultsForgetEarlierTransactions := by
  refine ⟨fun sel raw s s' hud => ?_, fun bits s s' => ?_⟩
  · have hw : raw.wellFormed = true := (wellFormed_iff raw).2 hud
    cases hv : validateFields raw with
    | failed k =>
      exact ⟨_, _, exec_create_of_failed hw hv sel s, exec_create_of_failed hw hv sel s', by simp⟩
    | valid c =>
      exact ⟨_, _, exec_create_of_valid hw hv sel s, exec_create_of_valid hw hv sel s',
        by simp [completeCreate_eq, passCoefs_forgets c s.k s'.k]⟩
  · simp only [exec_parse, execParse_eq]
    exact ⟨_, _, rfl, rfl, rfl, rfl, rfl, rfl, rfl, rfl⟩

/-- Settles O53, by whether the operation is a `CREATE` and, if so, by the outcome of its validation. -/
theorem onlyFailedCreatesFireTheLog : Obligations.OnlyFailedCreatesFireTheLog := by
  refine fun i s t h => ⟨?failed, ?otherwise⟩
  case failed =>
    rintro sel raw k rfl hk
    rcases exec_create_log h with ⟨k', hk', hlog⟩ | ⟨c, hc, -⟩
    · cases hk.symm.trans hk'
      exact hlog
    · cases hk.symm.trans hc
  case otherwise =>
    intro hnot
    by_cases hi : ∃ sel raw, i = .create sel raw
    · obtain ⟨sel, raw, rfl⟩ := hi
      rcases exec_create_log h with ⟨k, hk, -⟩ | ⟨c, -, hlog⟩
      · exact absurd hk (hnot sel raw k rfl)
      · exact hlog
    · exact exec_log_of_not_create h fun sel raw e => hi ⟨sel, raw, e⟩

/-- Settles O2: the descriptor is a definition and no part of the state, so no state can change it. -/
theorem descriptorHoldsItsConstants : Obligations.DescriptorHoldsItsConstants := fun _ => rfl

end Sys2Proof.Machine
end

section
/-! The bit buffer the host presents (spec/20_memory.md R53): its first 32 entries, or a refusal. -/

namespace Sys2Proof.Machine

theorem bitsOfBuffer_of_short {buffer : List Bool} (h : buffer.length < 32) :
    bitsOfBuffer buffer = .error (.shortBuffer buffer.length) :=
  if_pos h

theorem bitsOfBuffer_of_long {buffer : List Bool} (h : 32 ≤ buffer.length) :
    bitsOfBuffer buffer = .ok (BitVec.ofFnLE fun j => buffer.getD j.val false) :=
  if_neg (Nat.not_lt.2 h)

/-- A buffer of 32 entries is long enough that the model's default for a missing entry never enters the bits. -/
theorem getElem?_of_bitsOfBuffer {buffer : List Bool} {bits : BitArray} (hlong : 32 ≤ buffer.length)
    (h : bitsOfBuffer buffer = .ok bits) {j : Nat} (hj : j < 32) : buffer[j]? = some (bits.getLsbD j) := by
  rw [bitsOfBuffer_of_long hlong] at h
  cases h
  have hin : j < buffer.length := Nat.lt_of_lt_of_le hj hlong
  simp [hj, hin]

/-- Settles O52, by the length of the buffer. -/
theorem bufferGivesItsFirst32Bits : Obligations.BufferGivesItsFirst32Bits := by
  refine fun buffer => ⟨bitsOfBuffer_of_short, fun hlong => ?_⟩
  have hbits := bitsOfBuffer_of_long hlong
  exact ⟨_, hbits, fun j hj => getElem?_of_bitsOfBuffer hlong hbits hj⟩

end Sys2Proof.Machine
end

section
/-! The bits an operation does not use (spec/30_encoding.md R95): outside `op`, the reserved bits and the bit array
the decoder does not look at a `NOP` or a `PARSE`, and a `CREATE` does what its fields do with every absent value
cleared. -/

namespace Sys2Proof

/-! ### `NOP` and `PARSE` words -/

theorem decode_cw (cw : CommandWord) : decode { format := .cw, bits := cw } = decodeCommand cw := rfl

theorem decodeCommand_of_parse {cw : CommandWord} (hop : opField cw = 2) :
    decodeCommand cw = if reservedField cw ≠ 0 then .error .reservedBits else .ok (.parse (bitsField cw)) := by
  simp [decodeCommand, hop]

theorem decodeCommand_of_nop {cw : CommandWord} (hop : opField cw = 0) :
    decodeCommand cw = if reservedField cw ≠ 0 then .error .reservedBits else .ok .nop := by
  simp [decodeCommand, hop]

/-! ### The fields of a `CREATE` -/

/-- The raw fields with every value whose presence bit is 0 cleared. -/
def RawFields.clearAbsent (raw : RawFields) : RawFields :=
  { raw with
    idV := if raw.idP then raw.idV else 0
    unitV := if raw.unitP then raw.unitV else 0
    allV := raw.allP && raw.allV }

theorem clearAbsent_idV {raw : RawFields} (h : raw.idP = true) : raw.clearAbsent.idV = raw.idV := if_pos h

theorem clearAbsent_unitV {raw : RawFields} (h : raw.unitP = true) : raw.clearAbsent.unitV = raw.unitV := if_pos h

@[simp] theorem clearAbsent_upP (raw : RawFields) : raw.clearAbsent.upP = raw.upP := rfl

@[simp] theorem clearAbsent_learnP (raw : RawFields) : raw.clearAbsent.learnP = raw.learnP := rfl

@[simp] theorem wellFormed_clearAbsent (raw : RawFields) : raw.clearAbsent.wellFormed = raw.wellFormed := rfl

/-- Fields that agree on the presence bits and on the values that are present differ in nothing else. -/
theorem clearAbsent_eq_of_agree {raw other : RawFields} (hidP : raw.idP = other.idP)
    (hunitP : raw.unitP = other.unitP) (hallP : raw.allP = other.allP) (hup : raw.upP = other.upP)
    (hdown : raw.downP = other.downP) (hlearn : raw.learnP = other.learnP)
    (hid : raw.idP = true → raw.idV = other.idV) (hunit : raw.unitP = true → raw.unitV = other.unitV)
    (hall : raw.allP = true → raw.allV = other.allV) : raw.clearAbsent = other.clearAbsent := by
  have hidV : (if raw.idP then raw.idV else 0) = if other.idP then other.idV else 0 := by
    rw [← hidP]; exact ite_congr rfl hid fun _ => rfl
  have hunitV : (if raw.unitP then raw.unitV else 0) = if other.unitP then other.unitV else 0 := by
    rw [← hunitP]; exact ite_congr rfl hunit fun _ => rfl
  have hallV : (raw.allP && raw.allV) = (other.allP && other.allV) := by
    rw [← hallP]
    cases hp : raw.allP with
    | false => rfl
    | true => exact hall hp
  rw [RawFields.clearAbsent, hidV, hunitV, hallV, hidP, hunitP, hallP, hup, hdown, hlearn]
  rfl

namespace Machine

@[simp] theorem allT_clearAbsent (raw : RawFields) : allT raw.clearAbsent = allT raw := by
  simp [allT, RawFields.clearAbsent]

@[simp] theorem argumentsMissing_clearAbsent (raw : RawFields) :
    argumentsMissing raw.clearAbsent = argumentsMissing raw := by
  rw [argumentsMissing, allT_clearAbsent]; rfl

/-- Where no argument is missing, `id` is present, and `unit` is unless all devices are meant. -/
theorem present_of_not_argumentsMissing {raw : RawFields} (h : ¬ argumentsMissing raw = true) :
    raw.idP = true ∧ (allT raw = false → raw.unitP = true) := by
  rw [argumentsMissing_iff, not_or, not_or] at h
  obtain ⟨hid, hunit, -⟩ := h
  refine ⟨Bool.eq_true_of_not_eq_false hid, fun hall => Bool.eq_true_of_not_eq_false fun hunitP => ?_⟩
  exact hunit ⟨hunitP, by simp [hall]⟩

/-- Validation reads `id_v`, and `unit_v` where it matters, only once check 2 has found them present. -/
theorem validateFields_clearAbsent (raw : RawFields) : validateFields raw.clearAbsent = validateFields raw := by
  by_cases hmissing : argumentsMissing raw = true
  case pos => simp [validateFields, hmissing]
  case neg =>
    obtain ⟨hidP, hunitP⟩ := present_of_not_argumentsMissing hmissing
    have hidV := clearAbsent_idV hidP
    cases hall : allT raw with
    | true => simp [validateFields, commandOf, idOutside, hidV, hall]
    | false =>
      have hunitV := clearAbsent_unitV (hunitP hall)
      simp [validateFields, commandOf, idOutside, unitOutside, hidV, hunitV, hall]

theorem exec_create_clearAbsent (sel : BitVec 2) (raw : RawFields) (s : State) :
    exec (.create sel raw.clearAbsent) s = exec (.create sel raw) s := by
  simp only [exec_create, execCreate, wellFormed_clearAbsent, validateFields_clearAbsent]

/-- Settles O5, by the operation: the decoder's equation for `PARSE` and for `NOP`, and for `CREATE` the fields with
the absent values cleared. -/
theorem unusedFieldsAreIgnored : Obligations.UnusedFieldsAreIgnored := by
  refine ⟨fun v w hv hw hreserved hbits => ?parse, fun v w hv hw hreserved => ?nop,
    fun sel raw other s hidP hunitP hallP hup hdown hlearn hid hunit hall => ?create⟩
  case parse =>
    have hreserved' : reservedField v = reservedField w := hreserved
    have hbits' : bitsField v = bitsField w := hbits
    rw [decode_cw, decode_cw, decodeCommand_of_parse hv, decodeCommand_of_parse hw, hreserved', hbits']
  case nop =>
    have hreserved' : reservedField v = reservedField w := hreserved
    rw [decode_cw, decode_cw, decodeCommand_of_nop hv, decodeCommand_of_nop hw, hreserved']
  case create =>
    calc exec (.create sel raw) s
      _ = exec (.create sel raw.clearAbsent) s := (exec_create_clearAbsent sel raw s).symm
      _ = exec (.create sel other.clearAbsent) s := by
        rw [clearAbsent_eq_of_agree hidP hunitP hallP hup hdown hlearn hid hunit hall]
      _ = exec (.create sel other) s := exec_create_clearAbsent sel other s

end Machine
end Sys2Proof
end

section
/-! Validation (spec/40_validate.md R120 to R127): what each condition of the chain decides once those before it fail,
and the CommandModel of fields that meet none, whose truncated values are the values given. -/

namespace Sys2Proof.Machine

/-! ### The four checks -/

theorem validateFields_of_conflict {raw : RawFields} (hconflict : allT raw = true ∧ raw.learnP = true) :
    validateFields raw = .failed .conflictingOptions :=
  if_pos (by simpa using hconflict)

section
variable {raw : RawFields} (hconflict : ¬ (allT raw = true ∧ raw.learnP = true))
include hconflict

theorem validateFields_of_missing (hmissing : argumentsMissing raw = true) :
    validateFields raw = .failed .missingArguments := by
  rw [validateFields, if_neg (by simpa using hconflict), if_pos hmissing]

variable (hmissing : ¬ argumentsMissing raw = true)
include hmissing

theorem validateFields_of_idOutside (hid : idOutside raw = true) : validateFields raw = .failed .idOutOfRange := by
  rw [validateFields, if_neg (by simpa using hconflict), if_neg hmissing, if_pos hid]

variable (hid : ¬ idOutside raw = true)
include hid

theorem validateFields_of_unitOutside (hunit : ¬ allT raw = true ∧ unitOutside raw = true) :
    validateFields raw = .failed .unitOutOfRange := by
  rw [validateFields, if_neg (by simpa using hconflict), if_neg hmissing, if_neg hid, if_pos (by simpa using hunit)]

/-- The converse of `validateFields_valid`. -/
theorem validateFields_of_passes (hunit : ¬ (¬ allT raw = true ∧ unitOutside raw = true)) :
    validateFields raw = .valid (commandOf raw) := by
  rw [validateFields, if_neg (by simpa using hconflict), if_neg hmissing, if_neg hid, if_neg (by simpa using hunit)]

end

/-! ### The CommandModel -/

/-- A truncation loses nothing of a signed value that is in the range of the unsigned field (R129). -/
theorem toNat_truncate_of_inRange {w : Nat} (x : BitVec w) (len : Nat) (h0 : 0 ≤ x.toInt) (hlen : x.toInt < 2 ^ len) :
    ((x.extractLsb' 0 len).toNat : Int) = x.toInt := by
  have hx : x.toInt = x.toNat := toInt_of_nonneg x h0
  have hlt : x.toNat < 2 ^ len := by rw [hx] at hlen; exact_mod_cast hlen
  rw [BitVec.extractLsb'_toNat, Nat.shiftRight_zero, Nat.mod_eq_of_lt hlt, hx]

theorem commandOf_id {raw : RawFields} (hid : ¬ idOutside raw = true) :
    ((commandOf raw).id.toNat : Int) = raw.idV.toInt := by
  rw [idOutside_iff] at hid
  exact toNat_truncate_of_inRange raw.idV 26 (by omega) (by omega)

/-- R126, R127: in all-devices mode the unit is 0 whatever was given. -/
theorem commandOf_unit {raw : RawFields} (hunit : ¬ (¬ allT raw = true ∧ unitOutside raw = true)) :
    ((commandOf raw).unit.toNat : Int) = if allT raw = true then 0 else raw.unitV.toInt := by
  by_cases hall : allT raw = true
  case pos => simp [commandOf, hall]
  case neg =>
    have hrange : ¬ (raw.unitV.toInt < 0 ∨ 15 < raw.unitV.toInt) := fun h => hunit ⟨hall, (unitOutside_iff raw).2 h⟩
    simp only [commandOf, if_neg hall]
    exact toNat_truncate_of_inRange raw.unitV 4 (by omega) (by omega)

/-! ### `VALIDATE` as an operation -/

theorem exec_validate_of_wellFormed {raw : RawFields} (hw : raw.wellFormed = true) (s : State) :
    exec (.validate raw) s = .next (s.keepVerdict (validateFields raw)) :=
  if_pos hw

/-- Settles O10, by the first condition of the chain that holds. -/
theorem validateReportsFirstFailingCheck : Obligations.ValidateReportsFirstFailingCheck := by
  intro raw s hud
  refine ⟨validateFields raw, exec_validate_of_wellFormed ((wellFormed_iff raw).2 hud) s, ?_⟩
  simp only [← allT_iff, ← argumentsMissing_iff, ← idOutside_iff, ← unitOutside_iff]
  split
  case isTrue hconflict => exact validateFields_of_conflict hconflict
  case isFalse hconflict =>
  split
  case isTrue hmissing => exact validateFields_of_missing hconflict hmissing
  case isFalse hmissing =>
  split
  case isTrue hid => exact validateFields_of_idOutside hconflict hmissing hid
  case isFalse hid =>
  split
  case isTrue hunit => exact validateFields_of_unitOutside hconflict hmissing hid hunit
  case isFalse hunit =>
    exact ⟨commandOf raw, validateFields_of_passes hconflict hmissing hid hunit, commandOf_id hid, Iff.rfl,
      commandOf_unit hunit, rfl, rfl⟩

end Sys2Proof.Machine
end

section
/-! The encoder's steps as operations of their own (spec/41_encoder.md R141 to R149), and `learn` in a `CREATE` (R160):
each step writes `K` and `PH`, or the train, or the repeat count, and the laws of the slot space say which slots. -/

namespace Sys2Proof.Machine

/-! ### What each step answers, where `CM` holds what the step reads -/

theorem exec_pStart (s : State) : exec .pStart s = .next s.passStart := rfl

theorem exec_pClear (s : State) : exec .pClear s = .next s.passClear := rfl

theorem exec_pFooter (s : State) : exec .pFooter s = .next s.passFooter := rfl

theorem exec_pScale (sel : BitVec 2) (s : State) : exec (.pScale sel) s = .next (s.scaleTrain sel) := rfl

theorem exec_pId_of_held {s : State} {id : BitVec 26} (hid : s.cm.id = some id) :
    exec .pId s = .next (s.passId id) := by
  show execPId s = _
  rw [execPId, hid, readHeld_some]

theorem exec_pAll_of_held {s : State} {all : Bool} (hall : s.cm.all = some all) :
    exec .pAll s = .next (s.passAll all) := by
  show execPAll s = _
  rw [execPAll, hall, readHeld_some]

theorem exec_pState_of_held {s : State} {d : Direction} (hd : s.cm.state = some d) :
    exec .pState s = .next (s.passState d) := by
  show execPState s = _
  rw [execPState, hd, readHeld_some]

theorem exec_pUnit_of_held {s : State} {unit : BitVec 4} (hall : s.cm.all = some false)
    (hunit : s.cm.unit = some unit) : exec .pUnit s = .next (s.passUnit false unit) := by
  show execPUnit s = _
  rw [execPUnit, hall, readHeld_some, readUnit_unit, hunit, readHeld_some]

/-- In all-devices mode no unit is read, so it does not matter what `CM.unit` holds. -/
theorem exec_pUnit_of_all {s : State} (hall : s.cm.all = some true) :
    exec .pUnit s = .next (s.passUnit true 0) := by
  show execPUnit s = _
  rw [execPUnit, hall, readHeld_some, readUnit_all]

theorem exec_repeatCount_of_held {s : State} {learn : Bool} (hlearn : s.cm.learn = some learn) :
    exec .repeatCount s = .next (s.writeRepeat (repeatOf learn)) := by
  show execRepeatCount s = _
  rw [execRepeatCount, hlearn, readHeld_some]

/-! ### `K` after each pass -/

@[simp] theorem State.passStart_k (s : State) : s.passStart.k = startCoefs s.k := rfl

@[simp] theorem State.passClear_k (s : State) : s.passClear.k = clearCoefs s.k := rfl

@[simp] theorem State.passId_k (id : BitVec 26) (s : State) : (s.passId id).k = idCoefs id s.k := rfl

@[simp] theorem State.passAll_k (all : Bool) (s : State) : (s.passAll all).k = allCoefs all s.k := rfl

@[simp] theorem State.passState_k (d : Direction) (s : State) : (s.passState d).k = stateCoefs d s.k := rfl

@[simp] theorem State.passUnit_k (all : Bool) (unit : BitVec 4) (s : State) :
    (s.passUnit all unit).k = unitCoefs all unit s.k := rfl

@[simp] theorem State.passFooter_k (s : State) : s.passFooter.k = footerCoefs s.k := rfl

/-! ### The slots each pass writes and leaves -/

theorem clearCoefs_get_of_group (k : Coefs) (g : Nat) {i : Nat} (h : i < 132) (hfirst : 2 + 4 * g ≤ i)
    (hlast : i ≤ 5 + 4 * g) : (clearCoefs k)[i] = if i = 5 + 4 * g then .mult else .one := by
  have hlong : (i - 2) % 4 = 3 ↔ i = 5 + 4 * g := by omega
  rw [clearCoefs_get, if_neg (by omega)]
  simp only [hlong]

theorem idCoefs_get_of_set {id : BitVec 26} {g : Nat} (hbit : id.getLsbD g = true) (k : Coefs) {i : Nat}
    (h : i < 132) (hfirst : 2 + 4 * g ≤ i) (hlast : i ≤ 5 + 4 * g) :
    (idCoefs id k)[i] = if i = 3 + 4 * g then .mult else .one := by
  have hg : g < 26 := BitVec.lt_of_getLsbD hbit
  have hgroup : (i - 2) / 4 = g := by omega
  have hlong : (i - 2) % 4 = 1 ↔ i = 3 + 4 * g := by omega
  rw [idCoefs_get, if_pos ⟨by omega, by omega, hgroup ▸ hbit⟩]
  simp only [hlong]

theorem idCoefs_get_of_clear {id : BitVec 26} (k : Coefs) {i : Nat} (h : i < 132)
    (hout : i < 2 ∨ 106 ≤ i ∨ id.getLsbD ((i - 2) / 4) = false) : (idCoefs id k)[i] = k[i] := by
  rw [idCoefs_get, if_neg]
  rintro ⟨hfirst, hlast, hbit⟩
  rcases hout with hout | hout | hout
  · omega
  · omega
  · exact Bool.noConfusion (hout.symm.trans hbit)

/-- Group `28 + g` is the group of bit `g` of the unit. -/
theorem unitCoefs_get_of_set {unit : BitVec 4} {g : Nat} (hbit : unit.getLsbD g = true) (k : Coefs) {i : Nat}
    (h : i < 132) (hfirst : 114 + 4 * g ≤ i) (hlast : i ≤ 117 + 4 * g) :
    (unitCoefs false unit k)[i] = if i = 115 + 4 * g then .mult else .one := by
  have hg : g < 4 := BitVec.lt_of_getLsbD hbit
  have hgroup : (i - 2) / 4 - 28 = g := by omega
  have hlong : (i - 2) % 4 = 1 ↔ i = 115 + 4 * g := by omega
  rw [unitCoefs_get, if_pos ⟨rfl, by omega, by omega, hgroup ▸ hbit⟩]
  simp only [hlong]

theorem unitCoefs_get_of_clear {unit : BitVec 4} (k : Coefs) {i : Nat} (h : i < 132)
    (hout : i < 114 ∨ 130 ≤ i ∨ unit.getLsbD ((i - 114) / 4) = false) : (unitCoefs false unit k)[i] = k[i] := by
  rw [unitCoefs_get, if_neg]
  rintro ⟨-, hfirst, hlast, hbit⟩
  rcases hout with hout | hout | hout
  · omega
  · omega
  · have hgroup : (i - 2) / 4 - 28 = (i - 114) / 4 := by omega
    rw [hgroup] at hbit
    exact Bool.noConfusion (hout.symm.trans hbit)

theorem unitCoefs_of_all (unit : BitVec 4) (k : Coefs) : unitCoefs true unit k = k := rfl

theorem allCoefs_get (all : Bool) (k : Coefs) (i : Nat) (h : i < 132) :
    (allCoefs all k)[i] =
      if all = true ∧ 106 ≤ i ∧ i < 110 then (if i = 107 then .mult else .one) else k[i] :=
  overlayBit_get 106 all k i h

theorem directionBit_iff (d : Direction) : directionBit d = true ↔ d = .up := by
  cases d <;> simp [directionBit]

theorem stateCoefs_get (d : Direction) (k : Coefs) (i : Nat) (h : i < 132) :
    (stateCoefs d k)[i] =
      if d = .up ∧ 110 ≤ i ∧ i < 114 then (if i = 111 then .mult else .one) else k[i] := by
  rw [stateCoefs, overlayBit_get]
  simp only [directionBit_iff]

/-! ### The statements -/

/-- Settles O19, by the slots of the start marker. -/
theorem startPassWritesTheMarker : Obligations.StartPassWritesTheMarker :=
  fun s => ⟨s.passStart, exec_pStart s, rfl, startCoefs_get s.k⟩

/-- Settles O20: every group holds `LOW`, and of the overhanging group 32 only the first two slots exist. -/
theorem clearPassMakesEveryGroupLow : Obligations.ClearPassMakesEveryGroupLow := by
  refine fun s => ⟨s.passClear, exec_pClear s, rfl, fun g hg => ?groups, ?tail, ?footer, ?zero, ?one⟩
  case groups => simp (disch := omega) [clearCoefs_get_of_group s.k g]
  case tail | footer | zero | one => simp [clearCoefs_get]

/-- Settles O21, by whether a slot lies in the group of a set bit. -/
theorem idPassOverlaysItsSetBits : Obligations.IdPassOverlaysItsSetBits := by
  refine fun s id hid => ⟨s.passId id, exec_pId_of_held hid, rfl, fun g hg hbit => ?set, fun i h hout => ?other⟩
  case set => simp (disch := omega) [idCoefs_get_of_set hbit]
  case other => exact idCoefs_get_of_clear s.k h hout

/-- Settles O22: each of the two passes is the overlay of one bit. -/
theorem allAndStatePassesOverlayTheirBit : Obligations.AllAndStatePassesOverlayTheirBit := by
  refine ⟨fun s all hall => ⟨s.passAll all, exec_pAll_of_held hall, rfl, fun i h => ?all⟩,
    fun s d hd => ⟨s.passState d, exec_pState_of_held hd, rfl, fun i h => ?state⟩⟩
  case all => simp only [State.passAll_k, allCoefs_get, Nat.lt_succ_iff]
  case state => simp only [State.passState_k, stateCoefs_get, Nat.lt_succ_iff]

/-- Settles O23, by the mode: a unit is overlaid like an id, and in all-devices mode `K` stays. -/
theorem unitPassOverlaysOutsideAllMode : Obligations.UnitPassOverlaysOutsideAllMode := by
  refine ⟨fun s unit hall hunit => ⟨s.passUnit false unit, exec_pUnit_of_held hall hunit, rfl,
    fun g hg hbit => ?set, fun i h hout => ?other⟩, fun s hall => ⟨s.passUnit true 0, exec_pUnit_of_all hall, ?all⟩⟩
  case set => simp (disch := omega) [unitCoefs_get_of_set hbit]
  case other => exact unitCoefs_get_of_clear s.k h hout
  case all => rw [State.passUnit, unitCoefs_of_all]; rfl

/-- Settles O24, by the one slot of the footer pass. -/
theorem footerPassWritesSlot131 : Obligations.FooterPassWritesSlot131 :=
  fun s => ⟨s.passFooter, exec_pFooter s, rfl, footerCoefs_get s.k⟩

/-- The bases in the order of `PRESETS` (spec/00_scope.md R9, R13). -/
theorem base_eq (sel : BitVec 2) :
    Config.base sel = if sel = 0 then 315 else if sel = 1 then 251 else if sel = 2 then 294 else 303 := by
  revert sel; decide

/-- Settles O25: the train is the scaled `K`, whose products do not wrap in 16 bits. -/
theorem scaleMultipliesEverySlot : Obligations.ScaleMultipliesEverySlot := by
  refine fun s sel => ⟨scaleCoefs (Config.base sel) s.k, exec_pScale sel s, fun i h => ?_⟩
  rw [scaleCoefs_get, duration_toNat, base_eq]
  cases s.k[i] <;> rfl

/-- Settles O26, by the value of `CM.learn`. -/
theorem repeatCountFollowsLearn : Obligations.RepeatCountFollowsLearn := by
  intro s learn hlearn
  rw [exec_repeatCount_of_held hlearn]
  cases learn <;> rfl

/-! ### `learn` in a `CREATE` -/

/-- `learn_p` enters a command as its `learn` and nowhere else. -/
theorem commandOf_learnP (raw : RawFields) (learn : Bool) :
    commandOf { raw with learnP := learn } = { commandOf raw with learn := learn } := rfl

/-- No pass reads `learn`. -/
theorem passCoefs_learn (c : CommandModel) (learn : Bool) (k : Coefs) :
    passCoefs { c with learn := learn } k = passCoefs c k := rfl

/-- The train and the repeat count of a valid `CREATE`, with the part of `learn` written out. -/
theorem create_learnP_results {raw : RawFields} {learn : Bool} {c : CommandModel} (hw : raw.wellFormed = true)
    (hv : validateFields { raw with learnP := learn } = .valid c) (sel : BitVec 2) (s : State) :
    ∃ t, exec (.create sel { raw with learnP := learn }) s = .next t ∧
      t.train = some (scaleCoefs (Config.base sel) (passCoefs (commandOf raw) s.k)) ∧
      t.repeatCount = some (repeatOf learn) := by
  obtain ⟨rfl, -⟩ := validateFields_valid hv
  refine ⟨_, exec_create_of_valid (raw := { raw with learnP := learn }) hw hv sel s, ?_⟩
  rw [completeCreate_eq, commandOf_learnP, passCoefs_learn]
  exact ⟨rfl, rfl⟩

/-- Settles O18: both trains are the one of the command without its `learn`. -/
theorem learnShowsInTheRepeatCountAlone : Obligations.LearnShowsInTheRepeatCountAlone := by
  intro sel raw s c d hud hc hd
  have hw : raw.wellFormed = true := (wellFormed_iff raw).2 hud
  obtain ⟨t, ht, httrain, htrepeat⟩ := create_learnP_results hw hc sel s
  obtain ⟨u, hu, hutrain, hurepeat⟩ := create_learnP_results hw hd sel s
  exact ⟨t, u, ht, hu, httrain.trans hutrain.symm, by rw [httrain]; rfl, htrepeat, hurepeat⟩

end Sys2Proof.Machine
end

section
/-! The four field extractions of the decoder (spec/42_decoder.md R172 to R175): a slice of the bit array is the sum of
its set bits with weight `2^k` at its entry `k`, and each extraction writes its one field of `CM`. -/

namespace Sys2Proof.Machine

/-! ### A slice in arithmetic -/

theorem mod_two_pow_eq_sum_bits (n len : Nat) :
    n % 2 ^ len = ∑ k ∈ Finset.range len, (if n.testBit k = true then 2 ^ k else 0) := by
  induction len with
  | zero => simp [Nat.mod_one]
  | succ len ih =>
    rw [Nat.mod_pow_succ, ih, ← Nat.toNat_testBit, Finset.sum_range_succ]
    cases n.testBit len <;> simp

theorem toNat_extractLsb'_eq_sum_bits {w : Nat} (x : BitVec w) (start len : Nat) :
    (x.extractLsb' start len).toNat =
      ∑ k ∈ Finset.range len, (if x.getLsbD (start + k) = true then 2 ^ k else 0) := by
  rw [BitVec.extractLsb'_toNat, mod_two_pow_eq_sum_bits]
  simp only [Nat.testBit_shiftRight, BitVec.testBit_toNat]

theorem idOfBits_toNat (bits : BitArray) :
    (idOfBits bits).toNat = ∑ k ∈ Finset.range 26, (if bits.getLsbD k = true then 2 ^ k else 0) := by
  rw [idOfBits, toNat_extractLsb'_eq_sum_bits]
  simp only [Nat.zero_add]

theorem unitOfBits_toNat (bits : BitArray) :
    (unitOfBits bits).toNat = ∑ k ∈ Finset.range 4, (if bits.getLsbD (28 + k) = true then 2 ^ k else 0) :=
  toNat_extractLsb'_eq_sum_bits bits 28 4

/-! ### What each extraction answers -/

theorem exec_xId (bits : BitArray) (s : State) : exec (.xId bits) s = .next (s.writeId (idOfBits bits)) := rfl

theorem exec_xAll (bits : BitArray) (s : State) : exec (.xAll bits) s = .next (s.writeAll (allOfBits bits)) := rfl

theorem exec_xState (bits : BitArray) (s : State) :
    exec (.xState bits) s = .next (s.writeDirection (stateOfBits bits)) := rfl

theorem exec_xUnit (bits : BitArray) (s : State) : exec (.xUnit bits) s = .next (s.writeUnit (unitOfBits bits)) := rfl

/-! ### The statements -/

/-- Settles O38: the id is the slice of 26 bits at entry 0. -/
theorem idExtractionSumsItsBits : Obligations.IdExtractionSumsItsBits :=
  fun bits s => ⟨idOfBits bits, exec_xId bits s, idOfBits_toNat bits⟩

/-- Settles O39: the unit is the slice of 4 bits at entry 28, and entry 26 is not looked at. -/
theorem unitExtractionSumsItsBits : Obligations.UnitExtractionSumsItsBits :=
  fun bits s => ⟨unitOfBits bits, exec_xUnit bits s, unitOfBits_toNat bits⟩

/-- Settles O40: each of the two fields is one entry of the array. -/
theorem singleBitExtractions : Obligations.SingleBitExtractions :=
  fun bits s => ⟨exec_xAll bits s, exec_xState bits s⟩

end Sys2Proof.Machine
end

section
/-! The operations a host presents (spec/43_host_ops.md R190 to R200): how a command word is dispatched, and what
`NOP`, a `CREATE` that fails or completes, `PARSE` and the message record change and leave. -/

namespace Sys2Proof

/-! ### Dispatch of a command word, check by check (R200) -/

theorem decodeCommand_of_reserved {cw : CommandWord} (hreserved : reservedField cw ≠ 0) :
    decodeCommand cw = .error .reservedBits :=
  if_pos hreserved

section
variable {cw : CommandWord} (hreserved : ¬ reservedField cw ≠ 0)
include hreserved

theorem decodeCommand_of_reservedOp (hop : opField cw = 3) : decodeCommand cw = .error .reservedOp := by
  rw [decodeCommand, if_neg hreserved, if_pos hop]

variable (h3 : ¬ opField cw = 3) (h0 : ¬ opField cw = 0) (h2 : ¬ opField cw = 2)
include h3 h0 h2

theorem decodeCommand_of_upAndDown (hud : (rawField cw).upP = true ∧ (rawField cw).downP = true) :
    decodeCommand cw = .error .upAndDown := by
  rw [decodeCommand, if_neg hreserved, if_neg h3, if_neg h0, if_neg h2, if_pos (by simpa using hud)]

/-- The one `op` left after 11, 00 and 10 is that of `CREATE`. -/
theorem decodeCommand_of_create (hud : ¬ ((rawField cw).upP = true ∧ (rawField cw).downP = true)) :
    decodeCommand cw = .ok (.create (baseSelField cw) (rawField cw)) := by
  rw [decodeCommand, if_neg hreserved, if_neg h3, if_neg h0, if_neg h2, if_neg (by simpa using hud)]

end

namespace Machine

theorem step_of_rejected {s : State} {w : PortWord} {rest : List PortWord} {why : Reject}
    (hport : s.port = w :: rest) (hd : decode w = .error why) : step s = .refused (.rejectedWord why) := by
  rw [step, fetch_rejected hport hd]

theorem step_of_operation {s : State} {w : PortWord} {rest : List PortWord} {i : Instr}
    (hport : s.port = w :: rest) (hd : decode w = .ok i) : step s = exec i { s with port := rest } := by
  rw [step, fetch_operation hport hd]; rfl

/-! ### The train of a `CREATE` (R192) -/

/-- Every slot of the scaled `K` is its coefficient times the base, with no wrap (spec/41_encoder.md R158). -/
theorem scaleCoefs_toNat (sel : BitVec 2) (k : Coefs) (i : Nat) (h : i < 132) :
    ((scaleCoefs (Config.base sel) k)[i]).toNat = (k[i]).value * Config.base sel := by
  rw [scaleCoefs_get, duration_toNat]

/-! ### The message record (R197) -/

theorem exec_mkmsg (s : State) : exec .mkmsg s = execMkmsg s := rfl

theorem exec_mkmsg_of_unit {s : State} {id : BitVec 26} {unit : BitVec 4} {d : Direction}
    (hid : s.cm.id = some id) (hall : s.cm.all = some false) (hd : s.cm.state = some d)
    (hunit : s.cm.unit = some unit) : exec .mkmsg s = .next (s.writeMessage (makeMessage id false unit d)) := by
  simp only [exec_mkmsg, execMkmsg, hid, hall, hd, hunit, readHeld_some, readUnit_unit]

/-- In all-devices mode no unit is read, so it does not matter what `CM.unit` holds. -/
theorem exec_mkmsg_of_all {s : State} {id : BitVec 26} {d : Direction} (hid : s.cm.id = some id)
    (hall : s.cm.all = some true) (hd : s.cm.state = some d) :
    exec .mkmsg s = .next (s.writeMessage (makeMessage id true 0 d)) := by
  simp only [exec_mkmsg, execMkmsg, hid, hall, hd, readHeld_some, readUnit_all]

/-! ### The statements -/

/-- Settles O14: a `CREATE` that completes is one update of the state, and its train is the scaled `K`. -/
theorem successfulCreateWritesEveryResult : Obligations.SuccessfulCreateWritesEveryResult := by
  intro sel raw s c hud hv
  have hcreate := exec_create_of_valid ((wellFormed_iff raw).2 hud) hv sel s
  rw [completeCreate_eq] at hcreate
  exact ⟨_, scaleCoefs (Config.base sel) (passCoefs c s.k), hcreate, rfl, rfl, rfl, rfl,
    scaleCoefs_toNat sel (passCoefs c s.k), rfl, rfl, rfl, rfl, rfl, rfl, rfl⟩

/-- Settles O4, by the first check of the dispatch that holds. -/
theorem commandWordsAreDispatchedInOrder : Obligations.CommandWordsAreDispatchedInOrder := by
  intro s cw rest hport
  split
  case isTrue hreserved => exact step_of_rejected hport (decodeCommand_of_reserved hreserved)
  case isFalse hreserved =>
  split
  case isTrue h3 => exact step_of_rejected hport (decodeCommand_of_reservedOp hreserved h3)
  case isFalse h3 =>
  split
  case isTrue h0 => exact step_of_operation hport ((decodeCommand_of_nop h0).trans (if_neg hreserved))
  case isFalse h0 =>
  split
  case isTrue h2 => exact step_of_operation hport ((decodeCommand_of_parse h2).trans (if_neg hreserved))
  case isFalse h2 =>
  split
  case isTrue hud => exact step_of_rejected hport (decodeCommand_of_upAndDown hreserved h3 h0 h2 hud)
  case isFalse hud => exact step_of_operation hport (decodeCommand_of_create hreserved h3 h0 h2 hud)

/-- Settles O13: the failure is taken after `PH` and the outcome are set; only the code of `ERR` differs by kind. -/
theorem failedCreateTakesTheFailure : Obligations.FailedCreateTakesTheFailure := by
  intro sel raw s k hud hv
  have hcreate := exec_create_of_failed ((wellFormed_iff raw).2 hud) hv sel s
  exact ⟨some (.failed k), hcreate.trans (by cases k <;> rfl)⟩

/-- Settles O41: the command is the decoded bit array, and `PARSE` is one update of the state. -/
theorem parseWritesTheDecodedCommand : Obligations.ParseWritesTheDecodedCommand :=
  fun bits s => ⟨decodeBitArray bits, execParse_eq bits s, rfl, rfl, rfl, rfl, rfl⟩

/-- Settles O44, by the mode: the record has the unit, or in all-devices mode the number 1 under `all`. -/
theorem messageRecordFollowsTheCommand : Obligations.MessageRecordFollowsTheCommand :=
  ⟨fun _ _ _ _ => exec_mkmsg_of_unit, fun _ _ _ => exec_mkmsg_of_all⟩

/-- Settles O49: the next state of a `NOP` is the state itself. -/
theorem nopChangesNothing : Obligations.NopChangesNothing := fun _ => rfl

end Machine
end Sys2Proof
end

section
/-! What a `CREATE` reports (spec/60_exceptions.md R210 to R214): `FAIL` and `ERR` come from the outcome of its
validation, which is made of the raw fields alone. -/

namespace Sys2Proof.Machine

/-! ### The report of a `CREATE` that completes -/

@[simp] theorem completeCreate_fail (c : CommandModel) (sel : BitVec 2) (s : State) :
    (s.completeCreate c sel).fail = false := State.reportSuccess_fail _

@[simp] theorem completeCreate_err (c : CommandModel) (sel : BitVec 2) (s : State) :
    (s.completeCreate c sel).err = 0 := State.reportSuccess_err _

/-! ### The statement -/

/-- Settles O17, by the outcome of the validation: a failure of kind `k` reports 1 and the code of `k`, a completion
reports 0 and 0, and in neither does the report name the base or the state before. -/
theorem failuresDependOnTheFieldsAlone : Obligations.FailuresDependOnTheFieldsAlone := by
  intro sel sel' raw s s' hud
  have hw : raw.wellFormed = true := (wellFormed_iff raw).2 hud
  cases hv : validateFields raw with
  | failed k =>
    refine ⟨_, _, exec_create_of_failed hw hv sel s, exec_create_of_failed hw hv sel' s', rfl, rfl, ?_⟩
    exact iff_of_true (State.takeFailure_fail k _) ⟨k, rfl⟩
  | valid c =>
    refine ⟨_, _, exec_create_of_valid hw hv sel s, exec_create_of_valid hw hv sel' s', ?_⟩
    simp [completeCreate_fail, completeCreate_err]

end Sys2Proof.Machine
end

section
/-! The block beside its transmitter (spec/70_reset_and_hazards.md R247): which words of the host break the reading
under way, and what the station does with a word that breaks nothing. -/

namespace Sys2Proof.Machine

/-! ### Ownership of the train -/

theorem breaksOwnership_of_idle {st : Station} (w : PortWord) (hidle : st.reading = none) :
    breaksOwnership st w = false := by
  rw [breaksOwnership, hidle]; rfl

theorem breaksOwnership_of_operation (st : Station) {w : PortWord} {i : Instr} (hd : decode w = .ok i) :
    breaksOwnership st w = (st.reading.isSome && replacesTrain i) := by
  rw [breaksOwnership, hd]

/-! ### The events of a station -/

theorem readSlot_of_invalid {s : State} (hv : s.trainValid = false) (i : Nat) :
    readSlot s i = .error (.noValue .train) := by
  simp [readSlot, hv]

theorem stationStep_readNext_of_error {st : Station} {r : Fault}
    (hread : readSlot st.block (st.reading.getD 0) = .error r) : stationStep .readNext st = .fault r := by
  simp only [stationStep, hread]

theorem stationStep_transact_of_breaks {st : Station} {w : PortWord} (hb : breaksOwnership st w = true) :
    stationStep (.transact w) st = .fault .createWhileReading :=
  if_pos hb

/-- A word that breaks nothing and runs in the block changes the block of the station only. -/
theorem stationStep_transact_of_step {st : Station} {w : PortWord} {b : State} (hb : breaksOwnership st w = false)
    (hstep : step { st.block with port := [w] } = .next b) :
    stationStep (.transact w) st = .next { st with block := b } := by
  have htake : step (st.block.takeWord [w]) = .next b := hstep
  simp only [stationStep, hb, htake, Bool.false_eq_true, if_false]

/-- An operation that leaves the train alone runs whether or not a reading is under way. -/
theorem stationStep_transact_of_exec {st : Station} {w : PortWord} {i : Instr} {b : State} (hd : decode w = .ok i)
    (hkeeps : replacesTrain i = false) (hexec : exec i { st.block with port := [] } = .next b) :
    stationStep (.transact w) st = .next { st with block := b } := by
  have hb : breaksOwnership st w = false := by
    rw [breaksOwnership_of_operation st hd, hkeeps, Bool.and_false]
  exact stationStep_transact_of_step hb ((step_of_operation rfl hd).trans hexec)

/-! ### The statement -/

/-- Settles O60, by the event and the operation of the word: of the three command words only a `CREATE` replaces the
train, and with no reading under way there is no ownership to break. -/
theorem createWhileReadingIsAFault : Obligations.CreateWhileReadingIsAFault := by
  refine ⟨?invalidRead, ?create, ?safe, ?idle⟩
  case invalidRead => exact fun st hv => stationStep_readNext_of_error (readSlot_of_invalid hv _)
  case create =>
    intro st w sel raw hreading hd
    have hb : breaksOwnership st w = true := by
      rw [breaksOwnership_of_operation st hd, hreading]; rfl
    exact stationStep_transact_of_breaks hb
  case safe =>
    rintro st w - (hnop | ⟨bits, hparse⟩)
    · exact ⟨_, stationStep_transact_of_exec hnop rfl (nopChangesNothing _), rfl, rfl, rfl⟩
    · exact ⟨_, stationStep_transact_of_exec hparse rfl (execParse_eq bits _), rfl, rfl, rfl⟩
  case idle =>
    intro st w b hidle hstep
    exact stationStep_transact_of_step (breaksOwnership_of_idle w hidle) hstep

end Sys2Proof.Machine
end

section
/-! The encoder against the decoder (spec/30_encoding.md sections 4 to 6, log entries 2 and 23): each layout read back
from the word made of it, and each accepted internal word put together again from what is read of it. -/

namespace Sys2Proof

/-! ### From an operation to its word and back -/

/-- The checks a laid-out `CREATE` passes are those on its code: its reserved bits are 0. -/
theorem decodeCommand_packFields {raw : RawFields} (hw : raw.wellFormed = true) (sel : BitVec 2) :
    decodeCommand (packFields 1 sel raw) = .ok (.create sel raw) := by
  have hop := packFields_code 1 sel raw
  have hraw := packFields_raw 1 sel raw
  have hud := (Machine.wellFormed_iff raw).1 hw
  rw [decodeCommand_of_create (by rw [packFields_reserved]; decide) (by rw [hop]; decide) (by rw [hop]; decide)
    (by rw [hop]; decide) (by rwa [hraw]), packFields_baseSel, hraw]

theorem decodeStep_packFields {raw : RawFields} (hw : raw.wellFormed = true) :
    decodeStep (packFields 0 0 raw) = .ok (.validate raw) := by
  have hud : ¬ (raw.upP && raw.downP) = true := by simpa using (Machine.wellFormed_iff raw).1 hw
  simp only [decodeStep, packFields_code, packFields_reserved, packFields_baseSel, packFields_raw, if_neg hud]
  rfl

theorem decodeCommand_parse (bits : BitArray) : decodeCommand (encode (.parse bits)).bits = .ok (.parse bits) := by
  obtain ⟨hop, hreserved, hbits⟩ := encode_parse_fields bits
  rw [decodeCommand_of_parse hop, if_neg (not_not.2 hreserved), hbits]

/-- The fields of a PASS word. -/
theorem packPass_fields (sel : BitVec 2) (code : BitVec 3) :
    (packPass sel code).bits.extractLsb' 5 75 = 0 ∧ (packPass sel code).bits.extractLsb' 3 2 = sel ∧
    (packPass sel code).bits.extractLsb' 0 3 = code := by
  revert sel code
  decide

theorem decodePass_scale (sel : BitVec 2) : decodePass (packPass sel 7).bits = .ok (.pScale sel) := by
  obtain ⟨hrest, hsel, hcode⟩ := packPass_fields sel 7
  rw [decodePass, hrest, hsel, hcode]
  rfl

/-- The row of a BITS32 word chooses the extraction, and the array is its operand. -/
theorem decodeBits_packBits (row : BitVec 2) (bits : BitArray) :
    decodeBits (packBits row bits).bits =
      match row.toNat with
      | 0 => .ok (.xId bits)
      | 1 => .ok (.xAll bits)
      | 2 => .ok (.xState bits)
      | _ => .ok (.xUnit bits) := by
  obtain ⟨hrest, hrow, hbits⟩ := packBits_fields row bits
  rw [decodeBits, hrest, hrow, hbits]
  rfl

theorem decodeSymbol_low {group : BitVec 6} (hg : group.toNat ≤ 32) :
    decodeSymbol (packSymbol group 0b00000001).bits = .ok (.symLow group) := by
  obtain ⟨hrest, hgroup, hcode⟩ := packSymbol_fields group 0b00000001
  rw [decodeSymbol, hrest, hgroup, hcode]
  exact if_pos hg

theorem decodeSymbol_high {group : BitVec 6} (hg : group.toNat ≤ 31) :
    decodeSymbol (packSymbol group 0b00010000).bits = .ok (.symHigh group) := by
  obtain ⟨hrest, hgroup, hcode⟩ := packSymbol_fields group 0b00010000
  rw [decodeSymbol, hrest, hgroup, hcode]
  exact if_pos hg

/-- Settles O6, by the operation: a layout with operands reads back by its fields, and a word without is one word. -/
theorem decodingAnEncodingGivesItBack : Obligations.DecodingAnEncodingGivesItBack := by
  intro i hi
  cases i with
  | create sel raw => exact decodeCommand_packFields hi sel
  | parse bits => exact decodeCommand_parse bits
  | validate raw => exact decodeStep_packFields hi
  | pScale sel => exact decodePass_scale sel
  | xId bits => exact decodeBits_packBits 0 bits
  | xAll bits => exact decodeBits_packBits 1 bits
  | xState bits => exact decodeBits_packBits 2 bits
  | xUnit bits => exact decodeBits_packBits 3 bits
  | symLow group => exact decodeSymbol_low (of_decide_eq_true hi)
  | symHigh group => exact decodeSymbol_high (of_decide_eq_true hi)
  | nop | pStart | pClear | pId | pAll | pState | pUnit | pFooter | repeatCount | mkmsg | symStart | symTailFooter =>
    decide

/-! ### From an accepted word to what is read and back -/

/-- A bit is a slice of length 1. -/
theorem ofBool_getLsbD_eq_extract {w : Nat} (x : BitVec w) (i : Nat) :
    BitVec.ofBool (x.getLsbD i) = x.extractLsb' i 1 := by
  apply BitVec.eq_of_getLsbD_eq
  intro j hj
  obtain rfl : j = 0 := by omega
  simp

theorem packHeader_rawField {b : BitVec 80} (hreserved : reservedField b = 0) :
    packHeader (opField b) (baseSelField b) (rawField b) = b.extractLsb' 0 16 := by
  have h : (0#5) = b.extractLsb' 11 5 := hreserved.symm
  simp only [packHeader, opField, baseSelField, rawField, h, ofBool_getLsbD_eq_extract]
  simp (disch := rfl) only [BitVec.extractLsb'_append_extractLsb'_eq_extractLsb']

theorem packFields_rawField {b : BitVec 80} (hreserved : reservedField b = 0) :
    packFields (opField b) (baseSelField b) (rawField b) = b := by
  rw [packFields, packHeader_rawField hreserved]
  simp (disch := rfl) only [rawField, BitVec.extractLsb'_append_extractLsb'_eq_extractLsb']
  exact BitVec.extractLsb'_eq_self

/-- A word whose highest slice is 0 is made of the two below it. -/
theorem zero_append_slices_eq {w m n k : Nat} {b : BitVec w} (hw : k + n + m = w)
    (hzero : b.extractLsb' (m + n) k = 0#k) : (0#k ++ b.extractLsb' m n ++ b.extractLsb' 0 m).cast hw = b := by
  subst hw
  rw [← hzero, BitVec.extractLsb'_append_extractLsb'_eq_extractLsb' rfl,
    BitVec.extractLsb'_append_extractLsb'_eq_extractLsb' (Nat.zero_add m).symm, BitVec.cast_eq,
    BitVec.extractLsb'_eq_self]

/-- A slice inside a slice of zeros is 0. -/
theorem extract_eq_zero_of_inside {w start len start' len' : Nat} {b : BitVec w} (hzero : b.extractLsb' start len = 0)
    (hfirst : start ≤ start') (hlast : start' + len' ≤ start + len) : b.extractLsb' start' len' = 0 := by
  apply BitVec.eq_of_getLsbD_eq
  intro j hj
  have hbit := congrArg (BitVec.getLsbD · (start' - start + j)) hzero
  have hin : start' - start + j < len := by omega
  have hplace : start + (start' - start + j) = start' + j := by omega
  simpa [hin, hj, hplace] using hbit

/-- An operation and the word it is read from fit each other: the operation is well-formed and of the word's format,
and the word is its encoding. -/
def ReadBack (w : PortWord) (i : Instr) : Prop := i.wellFormed = true ∧ i.format = w.format ∧ encode i = w

/-! Each internal format, on a word put together from its slices, and then on any accepted word. -/

/-- The 32 PASS words whose rest is 0. -/
theorem readBack_packPass (sel : BitVec 2) (code : BitVec 3) :
    ∀ i ∈ (decodePass (packPass sel code).bits).toOption, ReadBack (packPass sel code) i := by
  revert sel code
  unfold ReadBack
  decide

theorem rest_of_decodePass {b : BitVec 80} {i : Instr} (h : decodePass b = .ok i) : b.extractLsb' 5 75 = 0 := by
  unfold decodePass at h
  split at h
  case isTrue =>
    split at h
    case isTrue => cases h
    case isFalse hrest => exact not_not.1 hrest
  case isFalse =>
    split at h
    case isTrue => cases h
    case isFalse hrest => exact extract_eq_zero_of_inside (not_not.1 hrest) (by decide) (by decide)

theorem readBack_of_decodePass {b : BitVec 80} {i : Instr} (h : decodePass b = .ok i) :
    ReadBack { format := .pass, bits := b } i := by
  have hword : packPass (b.extractLsb' 3 2) (b.extractLsb' 0 3) = { format := .pass, bits := b } :=
    congrArg (PortWord.mk .pass) (zero_append_slices_eq (m := 3) (n := 2) rfl (rest_of_decodePass h))
  rw [← hword]
  apply readBack_packPass
  rw [hword, h]
  rfl

theorem readBack_packBits {row : BitVec 2} {bits : BitArray} {i : Instr}
    (h : decode (packBits row bits) = .ok i) : ReadBack (packBits row bits) i := by
  have hrow : row = 0 ∨ row = 1 ∨ row = 2 ∨ row = 3 := by clear h; revert row; decide
  replace h := (decodeBits_packBits row bits).symm.trans h
  rcases hrow with rfl | rfl | rfl | rfl
  all_goals cases h; exact ⟨rfl, rfl, rfl⟩

theorem readBack_of_decodeBits {b : BitVec 80} {i : Instr} (h : decodeBits b = .ok i) :
    ReadBack { format := .bits32, bits := b } i := by
  have hrest : b.extractLsb' 34 46 = 0 := by
    by_contra hne
    rw [decodeBits, if_pos hne] at h
    cases h
  have hword : packBits (b.extractLsb' 32 2) (b.extractLsb' 0 32) = { format := .bits32, bits := b } :=
    congrArg (PortWord.mk .bits32) (zero_append_slices_eq (m := 32) (n := 2) rfl hrest)
  replace h : decode { format := .bits32, bits := b } = .ok i := h
  rw [← hword] at h ⊢
  exact readBack_packBits h

theorem readBack_packSymbol {group : BitVec 6} {code : BitVec 8} {i : Instr}
    (h : decode (packSymbol group code) = .ok i) : ReadBack (packSymbol group code) i := by
  obtain ⟨hrest, hgroup, hcode⟩ := packSymbol_fields group code
  replace h : decodeSymbol (packSymbol group code).bits = .ok i := h
  rw [decodeSymbol, hrest, hgroup, hcode, if_neg (not_not.2 rfl)] at h
  split at h
  case h_1 hval =>
    obtain rfl : code = 0b00000001 := BitVec.eq_of_toNat_eq hval
    split at h <;> cases h
    exact ⟨decide_eq_true ‹_›, rfl, rfl⟩
  case h_2 hval =>
    obtain rfl : code = 0b00010000 := BitVec.eq_of_toNat_eq hval
    split at h <;> cases h
    exact ⟨decide_eq_true ‹_›, rfl, rfl⟩
  case h_3 hval =>
    obtain rfl : code = 0b0010 := BitVec.eq_of_toNat_eq hval
    split at h <;> cases h
    subst group
    exact ⟨rfl, rfl, rfl⟩
  case h_4 hval =>
    obtain rfl : code = 0b0011 := BitVec.eq_of_toNat_eq hval
    split at h <;> cases h
    subst group
    exact ⟨rfl, rfl, rfl⟩
  case h_5 => cases h

theorem readBack_of_decodeSymbol {b : BitVec 80} {i : Instr} (h : decodeSymbol b = .ok i) :
    ReadBack { format := .sym, bits := b } i := by
  have hrest : b.extractLsb' 14 66 = 0 := by
    by_contra hne
    rw [decodeSymbol, if_pos hne] at h
    cases h
  have hword : packSymbol (b.extractLsb' 8 6) (b.extractLsb' 0 8) = { format := .sym, bits := b } :=
    congrArg (PortWord.mk .sym) (zero_append_slices_eq (m := 8) (n := 6) rfl hrest)
  replace h : decode { format := .sym, bits := b } = .ok i := h
  rw [← hword] at h ⊢
  exact readBack_packSymbol h

/-- A STEP word is its code where its rest is 0. -/
theorem eq_of_rest_eq_zero {b : BitVec 80} (hrest : b.extractLsb' 2 78 = 0) {code : BitVec 2} (hop : opField b = code) :
    b = 0#78 ++ code := by
  calc b
    _ = b.extractLsb' 0 (78 + 2) := BitVec.extractLsb'_eq_self.symm
    _ = b.extractLsb' 2 78 ++ b.extractLsb' 0 2 := (BitVec.extractLsb'_append_extractLsb'_eq_extractLsb' rfl).symm
    _ = 0#78 ++ code := by rw [hrest, ← hop]; rfl

theorem readBack_of_decodeStep {b : BitVec 80} {i : Instr} (h : decodeStep b = .ok i) :
    ReadBack { format := .step, bits := b } i := by
  unfold decodeStep at h
  split at h
  case h_1 hval =>
    have hop : opField b = 0 := BitVec.eq_of_toNat_eq hval
    split at h
    case isTrue => cases h
    case isFalse hzero =>
    obtain ⟨hreserved, hsel⟩ := not_or.1 hzero
    split at h
    case isTrue => cases h
    case isFalse hud =>
    cases h
    have hword := packFields_rawField (not_not.1 hreserved)
    rw [hop, not_not.1 hsel] at hword
    exact ⟨(Machine.wellFormed_iff _).2 (by simpa using hud), rfl, congrArg (PortWord.mk .step) hword⟩
  case h_2 hval =>
    split at h
    case isTrue => cases h
    case isFalse hrest =>
    cases h
    have hword := eq_of_rest_eq_zero (not_not.1 hrest) (BitVec.eq_of_toNat_eq (y := 1) hval)
    exact ⟨rfl, rfl, hword ▸ rfl⟩
  case h_3 hval =>
    split at h
    case isTrue => cases h
    case isFalse hrest =>
    cases h
    have hword := eq_of_rest_eq_zero (not_not.1 hrest) (BitVec.eq_of_toNat_eq (y := 2) hval)
    exact ⟨rfl, rfl, hword ▸ rfl⟩
  case h_4 => cases h

/-- Of an accepted command word the unused fields are lost, so only the operation is said of it. -/
theorem wellFormed_of_decodeCommand {cw : CommandWord} {i : Instr} (h : decodeCommand cw = .ok i) :
    i.wellFormed = true ∧ i.format = .cw := by
  unfold decodeCommand at h
  split at h
  case isTrue => cases h
  case isFalse =>
  split at h
  case isTrue => cases h
  case isFalse =>
  split at h
  case isTrue => cases h; exact ⟨rfl, rfl⟩
  case isFalse =>
  split at h
  case isTrue => cases h; exact ⟨rfl, rfl⟩
  case isFalse =>
  split at h
  case isTrue => cases h
  case isFalse hud =>
  cases h
  exact ⟨(Machine.wellFormed_iff _).2 (by simpa using hud), rfl⟩

/-- Settles O7, by the format of the word. -/
theorem acceptedWordsAreWellFormed : Obligations.AcceptedWordsAreWellFormed := by
  rintro ⟨format, bits⟩ i h
  have internal (hr : ReadBack { format := format, bits := bits } i) :
      i.wellFormed = true ∧ i.format = format ∧ (format ≠ .cw → encode i = { format := format, bits := bits }) :=
    ⟨hr.1, hr.2.1, fun _ => hr.2.2⟩
  cases format with
  | cw =>
    obtain ⟨hw, hf⟩ := wellFormed_of_decodeCommand h
    exact ⟨hw, hf, fun hne => absurd rfl hne⟩
  | step => exact internal (readBack_of_decodeStep h)
  | pass => exact internal (readBack_of_decodePass h)
  | bits32 => exact internal (readBack_of_decodeBits h)
  | sym => exact internal (readBack_of_decodeSymbol h)

end Sys2Proof
end

section
/-! The frame (spec/30_encoding.md sections 1.1 to 1.3, spec/41_encoder.md section 4): what each frame element writes,
the passes as one closed form of the frame bits, and the produced train read slot by slot from it. -/

namespace Sys2Proof.Machine

/-! ### The frame elements as operations -/

theorem exec_symLow (g : BitVec 6) (s : State) :
    exec (.symLow g) s = .next (s.writeCoefs (put s.k (groupSlot g.toNat) symbolLow)) := rfl

theorem exec_symHigh (g : BitVec 6) (s : State) :
    exec (.symHigh g) s = .next (s.writeCoefs (put s.k (groupSlot g.toNat) symbolHigh)) := rfl

theorem exec_symStart (s : State) : exec .symStart s = .next (s.writeCoefs (startCoefs s.k)) := rfl

theorem exec_symTailFooter (s : State) :
    exec .symTailFooter s = .next (s.writeCoefs (put s.k Config.tailSlot symbolTailFooter)) := rfl

/-- A four-slot pattern, whichever coefficients it has, at the slots of its group. -/
theorem put_get_four (k : Coefs) (slot : Nat) (a b c d : Coef) (i : Nat) (h : i < 132) :
    (put k slot [a, b, c, d])[i] =
      if i = slot then a else if i = slot + 1 then b else if i = slot + 2 then c else if i = slot + 3 then d
      else k[i] := by
  rw [put_get]
  by_cases hin : slot ≤ i
  case neg => simp (disch := omega) only [if_neg]
  case pos =>
    obtain ⟨j, rfl⟩ := Nat.exists_eq_add_of_le hin
    rcases j with _ | _ | _ | _ | j <;> simp

theorem put_symbolLow_get (k : Coefs) (g i : Nat) (h : i < 132) :
    (put k (groupSlot g) symbolLow)[i] =
      if i = 2 + 4 * g ∨ i = 3 + 4 * g ∨ i = 4 + 4 * g then .one else if i = 5 + 4 * g then .mult else k[i] := by
  rw [symbolLow, put_get_four]
  grind

theorem put_symbolHigh_get (k : Coefs) (g i : Nat) (h : i < 132) :
    (put k (groupSlot g) symbolHigh)[i] =
      if i = 2 + 4 * g ∨ i = 4 + 4 * g ∨ i = 5 + 4 * g then .one else if i = 3 + 4 * g then .mult else k[i] := by
  rw [symbolHigh, put_get_four]
  grind

theorem put_symbolTailFooter_get (k : Coefs) (i : Nat) (h : i < 132) :
    (put k Config.tailSlot symbolTailFooter)[i] =
      if i = 130 then .one else if i = 131 then .pulseDiv else k[i] := by
  rw [put_get, symbolTailFooter]
  by_cases hin : 130 ≤ i
  case neg => simp (disch := omega) only [if_neg]
  case pos =>
    have hi : i = 130 ∨ i = 131 := by omega
    rcases hi with rfl | rfl <;> rfl

/-- Settles O29: each symbol is one pattern put at its first slot. -/
theorem symbolsFillTheirSlots : Obligations.SymbolsFillTheirSlots :=
  fun s g => ⟨⟨_, exec_symLow g s, rfl, put_symbolLow_get s.k g.toNat⟩,
    ⟨_, exec_symHigh g s, rfl, put_symbolHigh_get s.k g.toNat⟩, ⟨_, exec_symStart s, rfl, startCoefs_get s.k⟩⟩

/-- Settles O30: the pattern begins at slot 130. -/
theorem tailAndFooterFillTheLastSlots : Obligations.TailAndFooterFillTheLastSlots :=
  fun s => ⟨_, exec_symTailFooter s, rfl, put_symbolTailFooter_get s.k⟩

/-! ### The frame bits, field by field -/

theorem frameBit_id (c : CommandModel) {g : Nat} (hg : g < 26) : frameBit c g = c.id.getLsbD g := if_pos hg

theorem frameBit_all (c : CommandModel) : frameBit c 26 = c.all := rfl

theorem frameBit_state (c : CommandModel) : frameBit c 27 = directionBit c.state := rfl

theorem frameBit_unit (c : CommandModel) {g : Nat} (hg : 28 ≤ g) :
    frameBit c g = (!c.all && c.unit.getLsbD (g - 28)) := by
  rw [frameBit, if_neg (by omega), if_neg (by omega), if_neg (by omega)]

/-! ### The closed form -/

/-- In a group the closed form is `HIGH` or `LOW`, by the group's frame bit. -/
theorem closedCoef_of_group (c : CommandModel) {i : Nat} (hfirst : 2 ≤ i) (hlast : i < 130) :
    closedCoef c i =
      if frameBit c ((i - 2) / 4) = true then (if (i - 2) % 4 = 1 then .mult else .one)
      else if (i - 2) % 4 = 3 then .mult else .one := by
  grind [closedCoef]

/-- The overlays leave a group `LOW` where its frame bit is 0 and make it `HIGH` where it is 1, field by field. -/
theorem passCoefs_get (c : CommandModel) (k : Coefs) (i : Nat) (h : i < 132) :
    (passCoefs c k)[i] = closedCoef c i := by
  simp only [passCoefs, footerCoefs_get, unitCoefs_get, stateCoefs_get, allCoefs_get, idCoefs_get, clearCoefs_get,
    startCoefs_get]
  have hregion : i < 2 ∨ (2 ≤ i ∧ i < 106) ∨ (106 ≤ i ∧ i < 110) ∨ (110 ≤ i ∧ i < 114) ∨ (114 ≤ i ∧ i < 130) ∨
    130 ≤ i := by omega
  rcases hregion with hmarker | hid | hall | hstate | hunit | htail
  · grind [closedCoef]
  · rw [closedCoef_of_group c (by omega) (by omega), frameBit_id c (by omega)]
    grind
  · have hgroup : (i - 2) / 4 = 26 := by omega
    rw [closedCoef_of_group c (by omega) (by omega), hgroup, frameBit_all]
    grind
  · have hgroup : (i - 2) / 4 = 27 := by omega
    rw [closedCoef_of_group c (by omega) (by omega), hgroup, frameBit_state]
    simp only [directionBit_iff]
    grind
  · rw [closedCoef_of_group c (by omega) (by omega), frameBit_unit c (by omega)]
    grind
  · grind [closedCoef]

/-- Settles O31, by the field whose groups hold the slot. -/
theorem passesGiveTheClosedForm : Obligations.PassesGiveTheClosedForm := passCoefs_get

/-! ### The order of the passes -/

/-- The coefficient a slot gets from the pass that writes it, if one other than `P_CLEAR` does. -/
def overlayCoef (i : Nat) : Coef :=
  if i = 1 then .startMult else if i = 131 then .pulseDiv else if i ≠ 0 ∧ (i - 2) % 4 = 1 then .mult else .one

/-- The coefficient a slot gets from `P_START` or `P_CLEAR`. -/
def clearedCoef (i : Nat) : Coef :=
  if i = 1 then .startMult else if 2 ≤ i ∧ (i - 2) % 4 = 3 then .mult else .one

/-- The update of `K` writes some of the slots, each with its coefficient in `content`, and leaves the others. -/
def WritesFrom (content : Nat → Coef) (p : Coefs → Coefs) : Prop :=
  ∀ (i : Nat) (h : i < 132), (∀ k : Coefs, (p k)[i] = content i) ∨ (∀ k : Coefs, (p k)[i] = k[i])

/-- Two updates that write the same coefficient wherever they both write give the same `K` in either order. -/
theorem WritesFrom.comm {content : Nat → Coef} {p q : Coefs → Coefs} (hp : WritesFrom content p)
    (hq : WritesFrom content q) (k : Coefs) : p (q k) = q (p k) := by
  ext i hi
  rcases hp i hi with hpi | hpi <;> rcases hq i hi with hqi | hqi <;> simp only [hpi, hqi]

/-- An update that decides by the slot alone whether it writes the slot's coefficient. -/
theorem writesFrom_of_get {content : Nat → Coef} {p : Coefs → Coefs} (writes : Nat → Prop) [DecidablePred writes]
    (hget : ∀ (k : Coefs) (i : Nat) (h : i < 132), (p k)[i] = if writes i then content i else k[i]) :
    WritesFrom content p := by
  intro i h
  by_cases hw : writes i
  · exact .inl fun k => by rw [hget k i h, if_pos hw]
  · exact .inr fun k => by rw [hget k i h, if_neg hw]

theorem writesFrom_startCoefs : WritesFrom overlayCoef startCoefs := by
  refine writesFrom_of_get (· < 2) fun k i h => ?_
  rw [startCoefs_get]
  grind [overlayCoef]

theorem writesFrom_idCoefs (id : BitVec 26) : WritesFrom overlayCoef (idCoefs id) := by
  refine writesFrom_of_get (fun i => 2 ≤ i ∧ i < 106 ∧ id.getLsbD ((i - 2) / 4) = true) fun k i h => ?_
  rw [idCoefs_get]
  grind [overlayCoef]

theorem writesFrom_allCoefs (all : Bool) : WritesFrom overlayCoef (allCoefs all) := by
  refine writesFrom_of_get (fun i => all = true ∧ 106 ≤ i ∧ i < 110) fun k i h => ?_
  rw [allCoefs_get]
  grind [overlayCoef]

theorem writesFrom_stateCoefs (d : Direction) : WritesFrom overlayCoef (stateCoefs d) := by
  refine writesFrom_of_get (fun i => d = .up ∧ 110 ≤ i ∧ i < 114) fun k i h => ?_
  rw [stateCoefs_get]
  grind [overlayCoef]

theorem writesFrom_unitCoefs (all : Bool) (unit : BitVec 4) : WritesFrom overlayCoef (unitCoefs all unit) := by
  refine writesFrom_of_get
    (fun i => all = false ∧ 114 ≤ i ∧ i < 130 ∧ unit.getLsbD ((i - 2) / 4 - 28) = true) fun k i h => ?_
  rw [unitCoefs_get]
  grind [overlayCoef]

theorem writesFrom_footerCoefs : WritesFrom overlayCoef footerCoefs := by
  refine writesFrom_of_get (· = 131) fun k i h => ?_
  rw [footerCoefs_get]
  grind [overlayCoef]

theorem clearCoefs_startCoefs_comm (k : Coefs) : clearCoefs (startCoefs k) = startCoefs (clearCoefs k) := by
  have hclear : WritesFrom clearedCoef clearCoefs := by
    refine writesFrom_of_get (2 ≤ ·) fun k i h => ?_
    rw [clearCoefs_get]
    grind [clearedCoef]
  have hstart : WritesFrom clearedCoef startCoefs := by
    refine writesFrom_of_get (· < 2) fun k i h => ?_
    rw [startCoefs_get]
    grind [clearedCoef]
  exact hclear.comm hstart k

/-- Settles O32: wherever a pass other than `P_CLEAR` writes a slot, the coefficient is fixed by the slot. -/
theorem disjointPassesCommute : Obligations.DisjointPassesCommute := by
  refine fun c k => ⟨fun p q hp hq => ?_, clearCoefs_startCoefs_comm k⟩
  have hwrites : ∀ r ∈ [startCoefs, idCoefs c.id, allCoefs c.all, stateCoefs c.state, unitCoefs c.all c.unit,
      footerCoefs], WritesFrom overlayCoef r := by
    simp only [List.forall_mem_cons]
    exact ⟨writesFrom_startCoefs, writesFrom_idCoefs _, writesFrom_allCoefs _, writesFrom_stateCoefs _,
      writesFrom_unitCoefs _ _, writesFrom_footerCoefs, nofun⟩
  exact (hwrites p hp).comm (hwrites q hq) k

/-! ### The produced train -/

/-- The train of a valid `CREATE` (R192), by the closed form. -/
theorem exec_create_train {raw : RawFields} {c : CommandModel} (hud : ¬ (raw.upP = true ∧ raw.downP = true))
    (hv : validateFields raw = .valid c) (sel : BitVec 2) (s : State) :
    ∃ (t : State) (train : Train), exec (.create sel raw) s = .next t ∧ t.train = some train ∧
      ∀ (i : Nat) (h : i < 132), (train[i]).toNat = (closedCoef c i).value * Config.base sel := by
  have hcreate := exec_create_of_valid ((wellFormed_iff raw).2 hud) hv sel s
  rw [completeCreate_eq] at hcreate
  refine ⟨_, _, hcreate, rfl, fun i h => ?_⟩
  rw [scaleCoefs_toNat, passCoefs_get]

theorem closedCoef_offset (c : CommandModel) {g j : Nat} (hg : g < 32) (hj : j < 4) :
    closedCoef c (2 + 4 * g + j) =
      if frameBit c g = true then (if j = 1 then .mult else .one) else if j = 3 then .mult else .one := by
  have hgroup : (2 + 4 * g + j - 2) / 4 = g := by omega
  have hoffset : (2 + 4 * g + j - 2) % 4 = j := by omega
  rw [closedCoef_of_group c (by omega) (by omega), hgroup, hoffset]

/-- The four slots of group `g` in the closed form. -/
theorem closedCoef_group (c : CommandModel) {g : Nat} (hg : g < 32) :
    closedCoef c (2 + 4 * g) = .one ∧ closedCoef c (3 + 4 * g) = (if frameBit c g = true then .mult else .one) ∧
    closedCoef c (4 + 4 * g) = .one ∧ closedCoef c (5 + 4 * g) = (if frameBit c g = true then .one else .mult) := by
  have h3 : 3 + 4 * g = 2 + 4 * g + 1 := by omega
  have h4 : 4 + 4 * g = 2 + 4 * g + 2 := by omega
  have h5 : 5 + 4 * g = 2 + 4 * g + 3 := by omega
  have h2 := closedCoef_offset c hg (j := 0) (by omega)
  rw [h3, h4, h5, closedCoef_offset c hg (by omega), closedCoef_offset c hg (by omega),
    closedCoef_offset c hg (by omega)]
  simpa using h2

@[simp] theorem value_one : Coef.one.value = 1 := rfl

@[simp] theorem value_mult : Coef.mult.value = 5 := rfl

@[simp] theorem value_startMult : Coef.startMult.value = 9 := rfl

@[simp] theorem value_pulseDiv : Coef.pulseDiv.value = Config.pulseDiv := rfl

/-- Settles O33, by the closed form at the four slots. -/
theorem producedTrainsHaveTheFixedFrame : Obligations.ProducedTrainsHaveTheFixedFrame := by
  intro sel raw s c hud hv
  obtain ⟨t, train, ht, htrain, hslot⟩ := exec_create_train hud hv sel s
  refine ⟨t, train, ht, htrain, ?_, ?_, ?_, ?_⟩ <;> simp [hslot, closedCoef]

/-- Settles O34, by the closed form at the four slots of the group. -/
theorem producedGroupsFollowTheirBit : Obligations.ProducedGroupsFollowTheirBit := by
  intro sel raw s c hud hv
  obtain ⟨t, train, ht, htrain, hslot⟩ := exec_create_train hud hv sel s
  refine ⟨t, train, ht, htrain, fun g hg => ?_⟩
  obtain ⟨h2, h3, h4, h5⟩ := closedCoef_group c hg
  simp only [hslot, h2, h3, h4, h5]
  cases frameBit c g <;> simp

/-! ### The duration of a train -/

/-- A group takes eight units of time, whatever its bit (R156). -/
theorem sum_closedCoef_groups (c : CommandModel) {n : Nat} (hn : n ≤ 32) :
    ∑ i ∈ Finset.range (2 + 4 * n), (closedCoef c i).value = 10 + 8 * n := by
  induction n with
  | zero => simp [Finset.sum_range_succ, closedCoef]
  | succ n ih =>
    have hgroup : ∑ j ∈ Finset.range 4, (closedCoef c (2 + 4 * n + j)).value = 8 := by
      have hfirst := (closedCoef_group c hn).1
      cases hbit : frameBit c n <;> simp [Finset.sum_range_succ, closedCoef_offset c hn, hbit, hfirst]
    rw [Nat.mul_succ, ← Nat.add_assoc, Finset.sum_range_add, ih (by omega), hgroup]
    omega

theorem sum_closedCoef (c : CommandModel) :
    ∑ i ∈ Finset.range 132, (closedCoef c i).value = 267 + Config.pulseDiv := by
  have h130 : closedCoef c 130 = .one := rfl
  have h131 : closedCoef c 131 = .pulseDiv := rfl
  rw [Finset.sum_range_succ, Finset.sum_range_succ, sum_closedCoef_groups c (Nat.le_refl 32), h130, h131]
  rfl

theorem sum_toList_eq {n : Nat} (t : Vector (BitVec 16) n) (f : Nat → Nat)
    (hslot : ∀ (i : Nat) (h : i < n), (t[i]).toNat = f i) :
    (t.toList.map BitVec.toNat).sum = ∑ i ∈ Finset.range n, f i := by
  have hlist : t.toList.map BitVec.toNat = List.ofFn fun i : Fin n => f i := by
    apply List.ext_getElem <;> simp [hslot]
  rw [hlist, List.sum_ofFn, Fin.sum_univ_eq_sum_range]

/-- Settles O35, by adding up the closed form group by group. -/
theorem everyTrainTakesTheSameTime : Obligations.EveryTrainTakesTheSameTime := by
  intro sel raw s c hud hv
  obtain ⟨t, train, ht, htrain, hslot⟩ := exec_create_train hud hv sel s
  refine ⟨t, train, ht, htrain, ?_⟩
  rw [sum_toList_eq train _ hslot, ← Finset.sum_mul, sum_closedCoef]

end Sys2Proof.Machine
end

section
/-! The frame word and the decoder (spec/30_encoding.md section 1.3, spec/42_decoder.md sections 2 and 4): a bit array
is its fields, the collapse of a produced train is the frame word, and what of a command arrives by its train. -/

namespace Sys2Proof.Machine

/-! ### A bit array and its fields -/

@[simp] theorem directionBit_directionOf (b : Bool) : directionBit (directionOf b) = b := by cases b <;> rfl

@[simp] theorem directionOf_directionBit (d : Direction) : directionOf (directionBit d) = d := by cases d <;> rfl

/-- An array decodes to a command just where each of its bits is the command's (R172 to R175). -/
theorem decodeBitArray_eq_iff (bits : BitArray) (c : CommandModel) :
    decodeBitArray bits = c ↔
      (∀ g < 26, bits.getLsbD g = c.id.getLsbD g) ∧ bits.getLsbD 26 = c.all ∧
      bits.getLsbD 27 = directionBit c.state ∧ (∀ j < 4, bits.getLsbD (28 + j) = c.unit.getLsbD j) ∧
      c.learn = false := by
  constructor
  case mp =>
    rintro rfl
    refine ⟨fun g hg => ?_, rfl, ?_, fun j hj => ?_, rfl⟩
    · simp [decodeBitArray, idOfBits, hg]
    · simp [decodeBitArray, stateOfBits]
    · simp [decodeBitArray, unitOfBits, hj]
  case mpr =>
    rintro ⟨hid, hall, hstate, hunit, hlearn⟩
    have hidBits : idOfBits bits = c.id := by
      apply BitVec.eq_of_getLsbD_eq
      intro g hg
      simp [idOfBits, hg, hid g hg]
    have hunitBits : unitOfBits bits = c.unit := by
      apply BitVec.eq_of_getLsbD_eq
      intro j hj
      simp [unitOfBits, hj, hunit j hj]
    rw [decodeBitArray, hidBits, hunitBits, allOfBits, hall, stateOfBits, hstate, directionOf_directionBit, ← hlearn]

/-- The fields cover the array, so it is known from what it decodes to. -/
theorem decodeBitArray_injective : Function.Injective decodeBitArray := by
  intro a b hab
  obtain ⟨hid, hall, hstate, hunit, -⟩ := (decodeBitArray_eq_iff a _).1 hab
  obtain ⟨hid', hall', hstate', hunit', -⟩ := (decodeBitArray_eq_iff b _).1 rfl
  apply BitVec.eq_of_getLsbD_eq
  intro g hg
  have hfield : g < 26 ∨ g = 26 ∨ g = 27 ∨ ∃ j < 4, g = 28 + j := by
    by_cases hlow : g < 28
    · omega
    · exact .inr (.inr (.inr ⟨g - 28, by omega, by omega⟩))
  rcases hfield with hlow | rfl | rfl | ⟨j, hj, rfl⟩
  · rw [hid g hlow, hid' g hlow]
  · rw [hall, hall']
  · rw [hstate, hstate']
  · rw [hunit j hj, hunit' j hj]

/-- The array of a command's fields, its unit too in all-devices mode: the frame bits are those of the same command
outside all-devices mode, but for the bit of `all`. -/
def arrayOfFields (c : CommandModel) : BitArray :=
  BitVec.ofFnLE fun g : Fin 32 => if g.val = 26 then c.all else frameBit { c with all := false } g.val

theorem decodeBitArray_arrayOfFields {c : CommandModel} (hlearn : c.learn = false) :
    decodeBitArray (arrayOfFields c) = c := by
  rw [decodeBitArray_eq_iff]
  refine ⟨fun g hg => ?_, ?_, ?_, fun j hj => ?_, hlearn⟩
  · have h1 : g < 32 := by omega
    have h2 : g ≠ 26 := by omega
    simp [arrayOfFields, h1, h2, frameBit_id _ hg]
  · simp [arrayOfFields]
  · simp [arrayOfFields, frameBit_state]
  · have h1 : 28 + j < 32 := by omega
    have h2 : 28 + j ≠ 26 := by omega
    simp [arrayOfFields, h1, h2, frameBit_unit]

/-- Settles O43: the array of the command's fields, and no other, since the fields cover the array. -/
theorem decodingIsABijection : Obligations.DecodingIsABijection := by
  intro c hlearn
  have hdecode := decodeBitArray_arrayOfFields hlearn
  exact ⟨arrayOfFields c, hdecode, fun bits hbits => decodeBitArray_injective (hbits.trans hdecode.symm)⟩

theorem toNat_eq_sum_of_fields (bits : BitArray) :
    bits.toNat = (idOfBits bits).toNat + (if allOfBits bits = true then 2 ^ 26 else 0) +
      (if stateOfBits bits = .up then 2 ^ 27 else 0) + (unitOfBits bits).toNat * 2 ^ 28 := by
  have hstate : stateOfBits bits = .up ↔ bits.getLsbD 27 = true := by
    rw [stateOfBits, ← directionBit_iff, directionBit_directionOf]
  have hlt := bits.isLt
  simp only [hstate, idOfBits, allOfBits, unitOfBits, BitVec.extractLsb'_toNat, BitVec.getLsbD,
    Nat.testBit_eq_decide_div_mod_eq, Nat.shiftRight_eq_div_pow, decide_eq_true_eq]
  split_ifs <;> omega

/-! ### The frame word -/

theorem frameWord_getLsbD (c : CommandModel) {g : Nat} (hg : g < 32) : (frameWord c).getLsbD g = frameBit c g := by
  simp [frameWord, hg]

/-- What the frame word holds of a command: `unit` only outside all-devices mode, and no `learn`. -/
def CommandModel.addressed (c : CommandModel) : CommandModel :=
  { c with unit := if c.all then 0 else c.unit, learn := false }

theorem decodeBitArray_frameWord (c : CommandModel) : decodeBitArray (frameWord c) = c.addressed := by
  rw [decodeBitArray_eq_iff]
  refine ⟨fun g hg => ?_, ?_, ?_, fun j hj => ?_, rfl⟩
  · rw [frameWord_getLsbD c (by omega), frameBit_id c hg]; rfl
  · rw [frameWord_getLsbD c (by omega), frameBit_all]; rfl
  · rw [frameWord_getLsbD c (by omega), frameBit_state]; rfl
  · rw [frameWord_getLsbD c (by omega), frameBit_unit c (by omega), CommandModel.addressed]
    cases c.all <;> simp

/-- Settles O36: the fields of the frame word are those of `addressed`. -/
theorem frameWordIsTheSumOfItsFields : Obligations.FrameWordIsTheSumOfItsFields := by
  intro c
  have hfields := decodeBitArray_frameWord c
  have hid : idOfBits (frameWord c) = c.id := congrArg CommandModel.id hfields
  have hall : allOfBits (frameWord c) = c.all := congrArg CommandModel.all hfields
  have hstate : stateOfBits (frameWord c) = c.state := congrArg CommandModel.state hfields
  have hunit : unitOfBits (frameWord c) = if c.all then 0 else c.unit := congrArg CommandModel.unit hfields
  rw [toNat_eq_sum_of_fields, hid, hall, hstate, hunit]
  cases c.all <;> simp

theorem frameWord_eq_iff (c d : CommandModel) : frameWord c = frameWord d ↔ c.addressed = d.addressed := by
  rw [← decodeBitArray_frameWord, ← decodeBitArray_frameWord, decodeBitArray_injective.eq_iff]

theorem addressed_eq_iff (c d : CommandModel) :
    c.addressed = d.addressed ↔
      c.id = d.id ∧ c.all = d.all ∧ c.state = d.state ∧ (c.all = true ∨ c.unit = d.unit) := by
  simp only [CommandModel.addressed, CommandModel.mk.injEq, and_true]
  grind

/-- The coefficients of a command are known from its frame bits. -/
theorem closedCoef_congr {c d : CommandModel} (h : frameWord c = frameWord d) {i : Nat} (hi : i < 132) :
    closedCoef c i = closedCoef d i := by
  by_cases hgroup : 2 ≤ i ∧ i < 130
  case pos =>
    have hbit : frameBit c ((i - 2) / 4) = frameBit d ((i - 2) / 4) := by
      rw [← frameWord_getLsbD c (by omega), h, frameWord_getLsbD d (by omega)]
    rw [closedCoef_of_group c hgroup.1 hgroup.2, closedCoef_of_group d hgroup.1 hgroup.2, hbit]
  case neg => grind [closedCoef]

/-- The frame bits are known from the coefficients, each from the second slot of its group. -/
theorem frameWord_eq_of_values {c d : CommandModel}
    (h : ∀ i < 132, (closedCoef c i).value = (closedCoef d i).value) : frameWord c = frameWord d := by
  apply BitVec.eq_of_getLsbD_eq
  intro g hg
  rw [frameWord_getLsbD c hg, frameWord_getLsbD d hg]
  obtain ⟨-, hc, -⟩ := closedCoef_group c hg
  obtain ⟨-, hd, -⟩ := closedCoef_group d hg
  have hslot := h (3 + 4 * g) (by omega)
  rw [hc, hd] at hslot
  cases hcb : frameBit c g <;> cases hdb : frameBit d g <;> simp [hcb, hdb] at hslot ⊢

theorem base_pos (sel : BitVec 2) : 0 < Config.base sel := by
  have := base_cases sel
  omega

/-- Settles O37: train, coefficients and frame word are known from one another, and the frame word from its fields. -/
theorem trainsDistinguishFrameWords : Obligations.TrainsDistinguishFrameWords := by
  refine fun sel c d k k' => ⟨⟨fun htrain => ?train, fun hword => ?word⟩,
    (frameWord_eq_iff c d).trans (addressed_eq_iff c d)⟩
  case train =>
    refine frameWord_eq_of_values fun i hi => ?_
    have hslot : ((scaleCoefs (Config.base sel) (passCoefs c k))[i]).toNat =
        ((scaleCoefs (Config.base sel) (passCoefs d k'))[i]).toNat := by rw [htrain]
    rw [scaleCoefs_toNat, scaleCoefs_toNat, passCoefs_get, passCoefs_get] at hslot
    exact Nat.eq_of_mul_eq_mul_right (base_pos sel) hslot
  case word =>
    congr 1
    ext i hi
    rw [passCoefs_get, passCoefs_get, closedCoef_congr hword hi]

/-! ### The collapse of a produced train (R177) -/

section
variable {t : Train} {c : CommandModel} {base : Nat} (hbase : 0 < base)
  (hslot : ∀ (i : Nat) (h : i < 132), (t[i]).toNat = (closedCoef c i).value * base)
include hbase hslot

/-- A group of a produced train is `HIGH` or `LOW`, as its frame bit says, and never both. -/
theorem isHigh_isLow_of_slots {g : Nat} (hg : g < 32) :
    isHigh t base g = frameBit c g ∧ isLow t base g = !frameBit c g := by
  have htime : ∀ i < 132, slotTime t i = (closedCoef c i).value * base := by
    intro i hi
    have hget : t.getD i 0 = t[i] := by simp [Vector.getD, hi]
    rw [slotTime, hget, hslot i hi]
  obtain ⟨h2, h3, h4, h5⟩ := closedCoef_group c hg
  simp (disch := omega) only [isHigh, isLow, htime, h2, h3, h4, h5]
  have hne : base ≠ 5 * base := by omega
  cases frameBit c g <;> simp [hne, hne.symm]

theorem collapse_of_slots : collapse t base = some (frameWord c) := by
  have hgroups := fun g hg => isHigh_isLow_of_slots hbase hslot (g := g) hg
  have hall : (List.range 32).all (fun g => isHigh t base g || isLow t base g) = true := by
    rw [List.all_eq_true]
    intro g hg
    obtain ⟨hhigh, hlow⟩ := hgroups g (List.mem_range.1 hg)
    rw [hhigh, hlow, Bool.or_not_self]
  rw [collapse, if_pos hall]
  congr 2
  funext g
  exact (hgroups g g.isLt).1

end

theorem collapse_passCoefs (sel : BitVec 2) (c : CommandModel) (k : Coefs) :
    collapse (scaleCoefs (Config.base sel) (passCoefs c k)) (Config.base sel) = some (frameWord c) := by
  refine collapse_of_slots (base_pos sel) fun i h => ?_
  rw [scaleCoefs_toNat, passCoefs_get]

/-! ### Round trips -/

/-- The mask clears the unit's bits and no other. -/
theorem decodeBitArray_masked {bits : BitArray} (hall : bits.getLsbD 26 = true) :
    decodeBitArray (bits &&& 0x0FFFFFFF) = (decodeBitArray bits).addressed := by
  have hmask : ∀ g < 32, (0x0FFFFFFF : BitArray).getLsbD g = decide (g < 28) := by decide
  obtain ⟨hid, -, hstate, -⟩ := (decodeBitArray_eq_iff bits _).1 rfl
  have hcall : (decodeBitArray bits).all = true := hall
  rw [decodeBitArray_eq_iff]
  refine ⟨fun g hg => ?_, ?_, ?_, fun j hj => ?_, rfl⟩
  · have h1 : g < 32 := by omega
    have h2 : g < 28 := by omega
    rw [BitVec.getLsbD_and, hmask g h1, decide_eq_true h2, Bool.and_true, hid g hg]
    rfl
  · rw [BitVec.getLsbD_and, hmask 26 (by decide), hall]
    exact hcall.symm
  · rw [BitVec.getLsbD_and, hmask 27 (by decide), hstate]
    exact Bool.and_true _
  · have h1 : 28 + j < 32 := by omega
    have h2 : ¬ 28 + j < 28 := by omega
    rw [BitVec.getLsbD_and, hmask _ h1, decide_eq_false h2, Bool.and_false, CommandModel.addressed, if_pos hcall]
    simp

theorem addressed_of_unit {c : CommandModel} (hall : c.all = false) (hlearn : c.learn = false) :
    c.addressed = c := by
  obtain ⟨id, unit, d, all, learn⟩ := c
  cases hall
  cases hlearn
  rfl

/-- The array that decodes to what the frame word holds of a decoded command. -/
theorem frameWord_decodeBitArray (bits : BitArray) :
    frameWord (decodeBitArray bits) = if bits.getLsbD 26 = true then bits &&& 0x0FFFFFFF else bits := by
  apply decodeBitArray_injective
  rw [decodeBitArray_frameWord]
  split
  case isTrue hall => exact (decodeBitArray_masked hall).symm
  case isFalse hall => exact addressed_of_unit (Bool.eq_false_of_not_eq_true hall) rfl

/-- Settles O48: the train collapses to the frame word of the decoded command. -/
theorem reencodingClearsTheUnitInAllMode : Obligations.ReencodingClearsTheUnitInAllMode := by
  intro sel bits k
  rw [collapse_passCoefs, frameWord_decodeBitArray]

/-- A valid `CREATE`, the collapse of its train, and a `PARSE` of that: the command that arrives is what the frame word
holds of the command sent. -/
theorem round_trip {raw : RawFields} {c : CommandModel} (hud : ¬ (raw.upP = true ∧ raw.downP = true))
    (hv : validateFields raw = .valid c) (sel : BitVec 2) (s : State) :
    ∃ (t u : State) (train : Train) (bits : BitArray), exec (.create sel raw) s = .next t ∧
      t.train = some train ∧ collapse train (Config.base sel) = some bits ∧ exec (.parse bits) t = .next u ∧
      u.cm = CommandRegister.holding c.addressed ∧ u.msg = some (messageOf c.addressed) ∧
      t.msg = some (messageOf c) := by
  have hcreate := exec_create_of_valid ((wellFormed_iff raw).2 hud) hv sel s
  rw [completeCreate_eq] at hcreate
  refine ⟨_, _, _, _, hcreate, rfl, collapse_passCoefs sel c s.k, execParse_eq _ _, ?_, ?_, rfl⟩
  all_goals simp only [decodeBitArray_frameWord]

/-- Settles O45: outside all-devices mode the frame word holds the unit. -/
theorem unitCommandsSurviveTheRoundTrip : Obligations.UnitCommandsSurviveTheRoundTrip := by
  intro sel raw s c hud hv hall
  obtain ⟨t, u, train, bits, ht, htrain, hbits, hu, hcm, -, -⟩ := round_trip hud hv sel s
  refine ⟨t, u, train, bits, ht, htrain, hbits, hu, hcm.trans ?_⟩
  simp [CommandModel.addressed, CommandRegister.holding, hall]

/-- Settles O46: in all-devices mode the frame word holds the unit 0. -/
theorem allCommandsDecodeWithUnitZero : Obligations.AllCommandsDecodeWithUnitZero := by
  intro sel raw s c hud hv hallP hallV
  obtain ⟨t, u, train, bits, ht, htrain, hbits, hu, hcm, -, -⟩ := round_trip hud hv sel s
  obtain ⟨hcommand, -⟩ := validateFields_valid hv
  have hall : c.all = true := by rw [hcommand]; exact (allT_iff raw).2 ⟨hallP, hallV⟩
  refine ⟨t, u, train, bits, ht, htrain, hbits, hu, hcm.trans ?_⟩
  simp [CommandModel.addressed, CommandRegister.holding, hall]

/-- The record shows `unit` only outside all-devices mode, and never `learn`: just what the frame word holds. -/
theorem messageOf_addressed (c : CommandModel) : messageOf c.addressed = messageOf c := by
  cases hall : c.all <;> simp [messageOf, makeMessage, CommandModel.addressed, hall]

/-- Settles O47: the record shows no more of a command than the frame word holds. -/
theorem parsedRecordIsTheCreatedRecord : Obligations.ParsedRecordIsTheCreatedRecord := by
  intro sel raw s c hud hv
  obtain ⟨t, u, train, bits, ht, htrain, hbits, hu, -, humsg, htmsg⟩ := round_trip hud hv sel s
  refine ⟨t, u, train, bits, ht, htrain, hbits, hu, ?_, by rw [humsg]; rfl⟩
  rw [humsg, htmsg, messageOf_addressed]

end Sys2Proof.Machine
end

section
/-! `CREATE` and `PARSE` as their rows (spec/41_encoder.md section 1, spec/42_decoder.md section 1), the steps that read
`CM` where it holds no value, and what validation gives a `CREATE` to work on. -/

namespace Sys2Proof.Machine

/-! ### Validation -/

/-- Settles O12: each check that the fields passed gives one of the invariants, and the widths the upper bounds. -/
theorem validatedCommandsMeetTheirInvariants : Obligations.ValidatedCommandsMeetTheirInvariants := by
  intro raw c hv
  obtain ⟨rfl, hconflict, -, hid, -⟩ := validateFields_valid hv
  have hidInt := commandOf_id hid
  rw [idOutside_iff] at hid
  refine ⟨by omega, by omega, ?_, hconflict, fun hall => ?_⟩
  · have := (commandOf raw).unit.isLt
    omega
  · exact if_pos hall

/-- The checks as the model's own predicate of a validated command. -/
theorem validated_of_valid {raw : RawFields} {c : CommandModel} (hv : validateFields raw = .valid c) :
    c.validated = true := by
  obtain ⟨hid, -, -, hconflict, hunit⟩ := validatedCommandsMeetTheirInvariants raw c hv
  cases hall : c.all <;> simp_all [CommandModel.validated]

theorem not_wellFormed_of_upAndDown {raw : RawFields} (hup : raw.upP = true) (hdown : raw.downP = true) :
    ¬ raw.wellFormed = true := fun hw => (wellFormed_iff raw).1 hw ⟨hup, hdown⟩

/-- Settles O11: the check on `up` and `down` comes before validation. -/
theorem upWithDownIsRefused : Obligations.UpWithDownIsRefused :=
  fun _ _ _ hup hdown =>
    have hw := not_wellFormed_of_upAndDown hup hdown
    ⟨if_neg hw, if_neg hw⟩

/-! ### The rows one after another -/

theorem runAll_cons {i : Instr} {rest : List Instr} {s t : State} {r : Result} (h : exec i s = .next t)
    (hrest : runAll rest t = r) : runAll (i :: rest) s = r := by
  simp only [runAll, h, hrest]

/-- Where `CM` holds a whole command, `P_UNIT` and `MKMSG` do what they do for it in either mode. -/
theorem exec_pUnit_of_holding {c : CommandModel} {s : State} (hcm : s.cm = CommandRegister.holding c) :
    exec .pUnit s = .next (s.passUnit c.all c.unit) := by
  cases hall : c.all with
  | false => exact exec_pUnit_of_held (by rw [hcm, ← hall]; rfl) (by rw [hcm]; rfl)
  | true => exact exec_pUnit_of_all (by rw [hcm, ← hall]; rfl)

theorem exec_mkmsg_of_holding {c : CommandModel} {s : State} (hcm : s.cm = CommandRegister.holding c) :
    exec .mkmsg s = .next (s.writeMessage (messageOf c)) := by
  rw [messageOf]
  cases hall : c.all with
  | false =>
    exact exec_mkmsg_of_unit (by rw [hcm]; rfl) (by rw [hcm, ← hall]; rfl) (by rw [hcm]; rfl) (by rw [hcm]; rfl)
  | true => exact exec_mkmsg_of_all (by rw [hcm]; rfl) (by rw [hcm, ← hall]; rfl) (by rw [hcm]; rfl)

/-! No step of `ENCODE` writes `CM`. -/

@[simp] theorem State.passStart_cm (s : State) : s.passStart.cm = s.cm := rfl

@[simp] theorem State.passClear_cm (s : State) : s.passClear.cm = s.cm := rfl

@[simp] theorem State.passId_cm (id : BitVec 26) (s : State) : (s.passId id).cm = s.cm := rfl

@[simp] theorem State.passAll_cm (all : Bool) (s : State) : (s.passAll all).cm = s.cm := rfl

@[simp] theorem State.passState_cm (d : Direction) (s : State) : (s.passState d).cm = s.cm := rfl

@[simp] theorem State.passUnit_cm (all : Bool) (unit : BitVec 4) (s : State) : (s.passUnit all unit).cm = s.cm := rfl

@[simp] theorem State.passFooter_cm (s : State) : s.passFooter.cm = s.cm := rfl

@[simp] theorem State.scaleTrain_cm (sel : BitVec 2) (s : State) : (s.scaleTrain sel).cm = s.cm := rfl

/-- The rows of `ENCODE` and the record, from a state that holds the command. -/
theorem runAll_createRows {c : CommandModel} (sel : BitVec 2) {s : State} (hcm : s.cm = CommandRegister.holding c) :
    runAll (createRows sel) s = .next ((s.encode c sel).writeMessage (messageOf c)) := by
  have hid : s.cm.id = some c.id := congrArg CommandRegister.id hcm
  have hall : s.cm.all = some c.all := congrArg CommandRegister.all hcm
  have hstate : s.cm.state = some c.state := congrArg CommandRegister.state hcm
  have hlearn : s.cm.learn = some c.learn := congrArg CommandRegister.learn hcm
  simp only [State.encode]
  exact runAll_cons (exec_pStart _) <| runAll_cons (exec_pClear _) <| runAll_cons (exec_pId_of_held (by simp [hid])) <|
    runAll_cons (exec_pAll_of_held (by simp [hall])) <| runAll_cons (exec_pState_of_held (by simp [hstate])) <|
    runAll_cons (exec_pUnit_of_holding (by simp [hcm])) <| runAll_cons (exec_pFooter _) <|
    runAll_cons (exec_pScale sel _) <| runAll_cons (exec_repeatCount_of_held (by simp [hlearn])) <|
    runAll_cons (exec_mkmsg_of_holding (by simp [hcm])) rfl

/-- Settles O15: the rows read from `CM` the operands that `ENCODE` gets from the command. -/
theorem createIsItsRowsInOrder : Obligations.CreateIsItsRowsInOrder := by
  intro sel raw s c hud hv
  have hw := (wellFormed_iff raw).2 hud
  refine ⟨_, _, exec_validate_of_wellFormed hw s, runAll_createRows sel rfl, ?_⟩
  rw [exec_create_of_valid hw hv sel s, hv]
  rfl

/-- Settles O42: after the extractions `CM` holds the decoded command but for `learn`. -/
theorem parseIsItsRowsInOrder : Obligations.ParseIsItsRowsInOrder := by
  refine fun bits s => ⟨_, _, ?rows, exec_mkmsg_of_holding (c := decodeBitArray bits) rfl, rfl⟩
  exact runAll_cons (exec_xUnit bits _) <| runAll_cons (exec_xState bits _) <| runAll_cons (exec_xAll bits _) <|
    runAll_cons (exec_xId bits _) rfl

/-! ### The steps that read `CM`, where it holds no value -/

/-- The command has the values that the register holds. -/
structure CommandModel.Agrees (c : CommandModel) (r : CommandRegister) : Prop where
  id : ∀ id, r.id = some id → c.id = id
  unit : ∀ unit, r.unit = some unit → c.unit = unit
  state : ∀ d, r.state = some d → c.state = d
  all : ∀ all, r.all = some all → c.all = all
  learn : ∀ learn, r.learn = some learn → c.learn = learn

/-- A command that has the values the register holds; what it has for the others does not matter. -/
def CommandRegister.completed (r : CommandRegister) : CommandModel where
  id := r.id.getD 0
  unit := r.unit.getD 0
  state := r.state.getD .down
  all := r.all.getD false
  learn := r.learn.getD false

theorem completed_agrees (r : CommandRegister) : r.completed.Agrees r := by
  constructor <;> (intro v hv; simp [CommandRegister.completed, hv])

/-- `i` runs from `s` as for some command that agrees with what `CM` holds. -/
def RunsAsForACommand (i : Instr) (s : State) : Prop :=
  ∃ (c : CommandModel) (n : Nat) (t : State), c.Agrees s.cm ∧
    exec i { s with cm := CommandRegister.holding c } = .next t ∧
    exec i s = .next { t with cm := s.cm, unheldReads := n }

theorem pId_runs (s : State) : RunsAsForACommand .pId s := by
  obtain ⟨id, n, hid, e⟩ := execPId_next s
  exact ⟨{ s.cm.completed with id := id }, n, _, { completed_agrees s.cm with id := hid }, exec_pId_of_held rfl, e⟩

theorem pAll_runs (s : State) : RunsAsForACommand .pAll s := by
  obtain ⟨all, n, hall, e⟩ := execPAll_next s
  exact ⟨{ s.cm.completed with all := all }, n, _, { completed_agrees s.cm with all := hall },
    exec_pAll_of_held rfl, e⟩

theorem pState_runs (s : State) : RunsAsForACommand .pState s := by
  obtain ⟨d, n, hd, e⟩ := execPState_next s
  exact ⟨{ s.cm.completed with state := d }, n, _, { completed_agrees s.cm with state := hd },
    exec_pState_of_held rfl, e⟩

theorem repeatCount_runs (s : State) : RunsAsForACommand .repeatCount s := by
  obtain ⟨learn, n, hlearn, e⟩ := execRepeatCount_next s
  exact ⟨{ s.cm.completed with learn := learn }, n, _, { completed_agrees s.cm with learn := hlearn },
    exec_repeatCount_of_held rfl, e⟩

theorem pUnit_runs (s : State) : RunsAsForACommand .pUnit s := by
  obtain ⟨all, unit, n, hall, hunit, e⟩ := execPUnit_next s
  cases all with
  | false =>
    exact ⟨{ s.cm.completed with all := false, unit := unit }, n, _,
      { completed_agrees s.cm with all := hall, unit := hunit rfl }, exec_pUnit_of_holding rfl, e⟩
  | true =>
    exact ⟨{ s.cm.completed with all := true }, n, _, { completed_agrees s.cm with all := hall },
      exec_pUnit_of_holding rfl, e⟩

theorem mkmsg_runs (s : State) : RunsAsForACommand .mkmsg s := by
  obtain ⟨id, all, d, unit, n, hid, hall, hd, hunit, e⟩ := execMkmsg_next s
  cases all with
  | false =>
    exact ⟨{ s.cm.completed with id := id, all := false, state := d, unit := unit }, n, _,
      { completed_agrees s.cm with id := hid, all := hall, state := hd, unit := hunit rfl },
      exec_mkmsg_of_holding rfl, e⟩
  | true =>
    exact ⟨{ s.cm.completed with id := id, all := true, state := d }, n, _,
      { completed_agrees s.cm with id := hid, all := hall, state := hd }, exec_mkmsg_of_holding rfl, e⟩

/-- Settles O28: the command is what `CM` holds, completed by the values the step has read. -/
theorem stepsThatReadTheCommandAlwaysRun : Obligations.StepsThatReadTheCommandAlwaysRun := by
  intro s i hi
  have hruns : ∀ j ∈ [.pId, .pAll, .pState, .pUnit, .repeatCount, .mkmsg], RunsAsForACommand j s := by
    simp only [List.forall_mem_cons]
    exact ⟨pId_runs s, pAll_runs s, pState_runs s, pUnit_runs s, repeatCount_runs s, mkmsg_runs s, nofun⟩
  obtain ⟨c, n, t, hagrees, hheld, hrun⟩ := hruns i hi
  exact ⟨c, n, t, hagrees.id, hagrees.unit, hagrees.state, hagrees.all, hagrees.learn, hheld, hrun⟩

end Sys2Proof.Machine
end

section
/-! What a step can do (spec/10_state.md sections 2 and 5, spec/60_exceptions.md section 1): every operation's effect on
the state, said once, and from it that no step faults, who writes the train, and the two invariants. -/

namespace Sys2Proof.Machine

/-! ### The effect of an operation -/

/-- Everything an operation that answers a next state can do. A host's operation has its own cases; an internal one
writes one register, or only what no host can see. -/
inductive Effect : Instr → State → State → Prop
  /-- `NOP`. -/
  | idle (s : State) : Effect .nop s s
  /-- A `CREATE` that fails. -/
  | failed {raw : RawFields} {k : FailKind} (hv : validateFields raw = .failed k) (sel : BitVec 2) (s : State) :
    Effect (.create sel raw) s ((s.openCreate (.failed k)).takeFailure k)
  /-- A `CREATE` that completes. -/
  | completed {raw : RawFields} {c : CommandModel} (hv : validateFields raw = .valid c) (sel : BitVec 2) (s : State) :
    Effect (.create sel raw) s ((s.openCreate (.valid c)).completeCreate c sel)
  /-- `PARSE`. -/
  | parsed (bits : BitArray) (s : State) : Effect (.parse bits) s { s with
      cm := CommandRegister.holding (decodeBitArray bits)
      cmValid := true
      msg := some (messageOf (decodeBitArray bits))
      msgValid := true
      fail := false
      err := 0 }
  /-- `VALIDATE`, a pass or a symbol. -/
  | unseen {i : Instr} (hi : i.format ≠ .cw) (s : State) {ph : BitVec 3} (hph : ph.toNat ≤ 6 ∨ ph = s.ph)
    (k : Coefs) (verdict : Option Verdict) (n : Nat) :
    Effect i s { s with ph := ph, k := k, verdict := verdict, unheldReads := n }
  /-- `P_SCALE`. -/
  | scaled (sel : BitVec 2) (s : State) : Effect (.pScale sel) s (s.scaleTrain sel)
  /-- The repeat-count step. -/
  | counted (s : State) (r : BitVec 6) (n : Nat) :
    Effect .repeatCount s { s with repeatCount := some r, unheldReads := n }
  /-- An extraction: `CM` loses no value it held. -/
  | extracted {i : Instr} (hi : i.format ≠ .cw) (s : State) {cm : CommandRegister}
    (hcm : s.cm.model?.isSome = true → cm.model?.isSome = true) : Effect i s { s with cm := cm }
  /-- `MKMSG`. -/
  | recorded (s : State) {m : Message} (hm : m.wellFormed = true) (n : Nat) :
    Effect .mkmsg s { s with msg := some m, unheldReads := n }

theorem model?_isSome (r : CommandRegister) :
    r.model?.isSome = (r.id.isSome && r.unit.isSome && r.state.isSome && r.all.isSome && r.learn.isSome) := by
  obtain ⟨_ | _, _ | _, _ | _, _ | _, _ | _⟩ := r <;> rfl

theorem makeMessage_wellFormed (id : BitVec 26) (all : Bool) (unit : BitVec 4) (d : Direction) :
    (makeMessage id all unit d).wellFormed = true := by
  cases all <;> rfl

/-- An operation answers a next state that its effect gives, or it is refused for `up` with `down`. -/
theorem exec_effect (i : Instr) (s : State) :
    (∃ t, exec i s = .next t ∧ Effect i s t) ∨ exec i s = .refused (.rejectedWord .upAndDown) := by
  cases i with
  | nop => exact .inl ⟨_, rfl, .idle s⟩
  | create sel raw =>
    rcases execCreate_cases sel raw s with ⟨-, e⟩ | ⟨-, k, hv, e⟩ | ⟨-, c, hv, e⟩
    · exact .inr e
    · exact .inl ⟨_, e, .failed hv sel s⟩
    · exact .inl ⟨_, e, .completed hv sel s⟩
  | parse bits => exact .inl ⟨_, execParse_eq bits s, .parsed bits s⟩
  | validate raw =>
    by_cases hw : raw.wellFormed = true
    · exact .inl ⟨_, exec_validate_of_wellFormed hw s, .unseen (by nofun) s (.inr rfl) _ _ _⟩
    · exact .inr (if_neg hw)
  | pStart | pClear | pFooter => exact .inl ⟨_, rfl, .unseen (by decide) s (.inl (by decide)) _ _ _⟩
  | pId =>
    obtain ⟨id, n, -, e⟩ := execPId_next s
    exact .inl ⟨_, e, .unseen (by decide) s (.inl (by decide)) _ _ n⟩
  | pAll =>
    obtain ⟨all, n, -, e⟩ := execPAll_next s
    exact .inl ⟨_, e, .unseen (by decide) s (.inl (by decide)) _ _ n⟩
  | pState =>
    obtain ⟨d, n, -, e⟩ := execPState_next s
    exact .inl ⟨_, e, .unseen (by decide) s (.inl (by decide)) _ _ n⟩
  | pUnit =>
    obtain ⟨all, unit, n, -, -, e⟩ := execPUnit_next s
    exact .inl ⟨_, e, .unseen (by decide) s (.inl (by decide)) _ _ n⟩
  | pScale sel => exact .inl ⟨_, rfl, .scaled sel s⟩
  | repeatCount =>
    obtain ⟨learn, n, -, e⟩ := execRepeatCount_next s
    exact .inl ⟨_, e, .counted s _ n⟩
  | xId | xAll | xState | xUnit =>
    refine .inl ⟨_, rfl, .extracted (by nofun) s fun h => ?_⟩
    rw [model?_isSome] at h ⊢
    grind
  | mkmsg =>
    obtain ⟨id, all, d, unit, n, -, -, -, -, e⟩ := execMkmsg_next s
    exact .inl ⟨_, e, .recorded s (makeMessage_wellFormed id all unit d) n⟩
  | symLow | symHigh | symStart | symTailFooter =>
    exact .inl ⟨_, rfl, .unseen (by nofun) s (.inr rfl) _ _ _⟩

theorem effect_of_exec {i : Instr} {s t : State} (h : exec i s = .next t) : Effect i s t := by
  rcases exec_effect i s with ⟨u, e, heffect⟩ | e <;> cases h.symm.trans e
  exact heffect

/-- No operation writes the port. -/
theorem Effect.port_eq {i : Instr} {s t : State} (h : Effect i s t) : t.port = s.port := by
  cases h <;> simp [completeCreate_eq, State.scaleTrain]

/-! ### Steps and faults -/

theorem step_of_idle {s : State} (hport : s.port = []) : step s = .next s := by
  rw [step, fetch_idle hport]

/-- Settles O3, by the port. -/
theorem stepRunsTheDecodedOperation : Obligations.StepRunsTheDecodedOperation :=
  ⟨fun _ _ _ _ => step_of_operation, fun _ => step_of_idle⟩

/-- Settles O55: a word is rejected, or its operation runs or is refused. -/
theorem noStepFaults : Obligations.NoStepFaults := by
  intro s r h
  cases hport : s.port with
  | nil => cases (step_of_idle hport).symm.trans h
  | cons w rest =>
    cases hd : decode w with
    | error why => cases (step_of_rejected hport hd).symm.trans h
    | ok i =>
      rw [step_of_operation hport hd] at h
      rcases exec_effect i { s with port := rest } with ⟨t, e, -⟩ | e <;> cases h.symm.trans e

/-! ### Ownership of the train -/

/-- Settles O54, by the effect: outside a `CREATE` only the two named steps write one of the three registers. -/
theorem onlyCreateWritesTheTrain : Obligations.OnlyCreateWritesTheTrain := by
  intro i s t h hcreate
  cases effect_of_exec h with
  | failed hv sel | completed hv sel => exact absurd rfl (hcreate sel _)
  | scaled sel => exact ⟨fun hscale => absurd rfl (hscale sel), fun _ => rfl⟩
  | counted => exact ⟨fun _ => ⟨rfl, rfl⟩, fun hcount => absurd rfl hcount⟩
  | idle | parsed | unseen | extracted | recorded => exact ⟨fun _ => ⟨rfl, rfl⟩, fun _ => rfl⟩

/-! ### Soundness -/

theorem failKind_code_range (k : FailKind) : k.code.toNat ≤ 4 ∧ k.code ≠ 0 := by cases k <;> decide

theorem trainFormed_scaleCoefs (sel : BitVec 2) (k : Coefs) : trainFormed (scaleCoefs (Config.base sel) k) :=
  ⟨sel, fun i => ⟨k[i], scaleCoefs_toNat sel k i i.isLt⟩⟩

/-- What no host can see, but for `PH`, does not matter to soundness. -/
theorem State.Sound.of_unseen {s : State} (hs : s.Sound) {ph : BitVec 3} (hph : ph.toNat ≤ 6) (k : Coefs)
    (verdict : Option Verdict) (port : List PortWord) (n : Nat) :
    State.Sound { s with ph := ph, k := k, verdict := verdict, port := port, unheldReads := n } where
  command_held := hs.command_held
  train_held := hs.train_held
  message_held := hs.message_held
  err_is_code := hs.err_is_code
  fail_is_err := hs.fail_is_err
  ph_is_index := hph
  message_formed := hs.message_formed
  train_formed := hs.train_formed

theorem takeFailure_sound (k : FailKind) {s : State} (hph : s.ph.toNat ≤ 6) : (s.takeFailure k).Sound where
  command_held := nofun
  train_held := rfl
  message_held := nofun
  err_is_code := (failKind_code_range k).1
  fail_is_err := (decide_eq_true (failKind_code_range k).2).symm
  ph_is_index := hph
  message_formed := nofun
  train_formed := nofun

theorem completeCreate_sound (c : CommandModel) (sel : BitVec 2) (s : State) : (s.completeCreate c sel).Sound := by
  rw [completeCreate_eq]
  exact {
    command_held := fun _ => rfl
    train_held := rfl
    message_held := fun _ => rfl
    err_is_code := by simp
    fail_is_err := by simp
    ph_is_index := by simp
    message_formed := by rintro m ⟨⟩; exact makeMessage_wellFormed ..
    train_formed := fun t ht => Option.some.inj ht ▸ trainFormed_scaleCoefs sel _ }

theorem Effect.sound {i : Instr} {s t : State} (h : Effect i s t) (hs : s.Sound) : t.Sound := by
  cases h with
  | idle => exact hs
  | failed => exact takeFailure_sound _ (by simp)
  | completed => exact completeCreate_sound _ _ _
  | parsed bits =>
    exact { hs with
      command_held := fun _ => rfl
      message_held := fun _ => rfl
      err_is_code := by simp
      fail_is_err := by simp
      message_formed := by rintro m ⟨⟩; exact makeMessage_wellFormed .. }
  | unseen _ _ hph => exact hs.of_unseen (hph.elim id fun e => e ▸ hs.ph_is_index) _ _ _ _
  | scaled sel =>
    exact { hs with
      train_held := rfl
      train_formed := fun t ht => Option.some.inj ht ▸ trainFormed_scaleCoefs sel _ }
  | counted => exact { hs with }
  | extracted _ _ hcm => exact { hs with command_held := fun hv => hcm (hs.command_held hv) }
  | recorded _ hm =>
    exact { hs with
      message_held := fun _ => rfl
      message_formed := by rintro m ⟨⟩; exact hm }

/-- Settles O56, by the effect of the operation at the head of the port. -/
theorem everyStepKeepsSoundness : Obligations.EveryStepKeepsSoundness := by
  intro s t hs hstep
  rcases step_next hstep with ⟨-, rfl⟩ | ⟨w, rest, i, -, -, hexec⟩
  · exact hs
  · exact (effect_of_exec hexec).sound (hs.of_unseen hs.ph_is_index _ _ rest _)

/-! ### Between command words -/

theorem State.Settled.takeWord {s : State} (hs : s.Settled) (rest : List PortWord) : (s.takeWord rest).Settled :=
  { hs with }

theorem takeFailure_settled (k : FailKind) {s : State} (hph : s.ph = 0) : (s.takeFailure k).Settled where
  command_absent := fun _ => rfl
  command_held := nofun
  message_flag := rfl
  message_absent := fun _ => rfl
  train_absent := fun _ => ⟨rfl, rfl⟩
  train_held := nofun
  failure_leaves_nothing := fun _ => ⟨rfl, rfl⟩
  err_is_code := (failKind_code_range k).1
  fail_is_err := (decide_eq_true (failKind_code_range k).2).symm
  between_passes := hph

theorem encodedTrain_of_validated {c : CommandModel} (hc : c.validated = true) (sel : BitVec 2) (k : Coefs) :
    encodedTrain (scaleCoefs (Config.base sel) (passCoefs c k)) (repeatOf c.learn) := by
  refine ⟨c, sel, hc, rfl, fun i => ?_⟩
  rw [Fin.getElem_fin, scaleCoefs_toNat, passCoefs_get]

theorem completeCreate_settled {c : CommandModel} (hc : c.validated = true) (sel : BitVec 2) (s : State) :
    (s.completeCreate c sel).Settled := by
  rw [completeCreate_eq]
  exact {
    command_absent := nofun
    command_held := fun _ => ⟨c, rfl, rfl⟩
    message_flag := rfl
    message_absent := nofun
    train_absent := nofun
    train_held := fun _ => ⟨_, _, rfl, rfl, encodedTrain_of_validated hc sel s.k⟩
    failure_leaves_nothing := nofun
    err_is_code := by simp
    fail_is_err := by simp
    between_passes := rfl }

theorem Effect.settled {i : Instr} {s t : State} (h : Effect i s t) (hi : i.format = .cw) (hs : s.Settled) :
    t.Settled := by
  cases h with
  | idle => exact hs
  | failed => exact takeFailure_settled _ rfl
  | completed hv => exact completeCreate_settled (validated_of_valid hv) _ _
  | parsed bits =>
    exact { hs with
      command_absent := nofun
      command_held := fun _ => ⟨_, rfl, rfl⟩
      message_flag := rfl
      message_absent := nofun
      failure_leaves_nothing := nofun
      err_is_code := by simp
      fail_is_err := by simp }
  | unseen hne => exact absurd hi hne
  | extracted hne => exact absurd hi hne
  | scaled | counted | recorded => cases hi

/-- Settles O57: what a command word decodes to is a host's operation, and each of these ends settled. -/
theorem commandWordsKeepTheBlockSettled : Obligations.CommandWordsKeepTheBlockSettled := by
  intro s t hs hwords hstep
  rcases step_next hstep with ⟨-, rfl⟩ | ⟨w, rest, i, hport, hd, hexec⟩
  · exact ⟨hs, hwords⟩
  · rw [hport, List.forall_mem_cons] at hwords
    obtain ⟨hw, hrest⟩ := hwords
    obtain ⟨-, hformat, -⟩ := acceptedWordsAreWellFormed w i hd
    have heffect := effect_of_exec hexec
    refine ⟨heffect.settled (hformat.trans hw) (hs.takeWord rest), ?_⟩
    rw [heffect.port_eq]
    exact hrest

end Sys2Proof.Machine
end

section
/-! The readers of the block (spec/10_state.md section 7, spec/20_memory.md section 2): a read of a register without its
flag, a read between command words, and the transmitter's reading of a whole train. -/

namespace Sys2Proof.Machine

/-! ### Reads of one register -/

theorem readRepeat_of_invalid {s : State} (hv : s.trainValid = false) :
    readRepeat s = .error (.noValue .repeatCount) := by
  simp [readRepeat, hv]

theorem readCommand_of_invalid {s : State} (hv : s.cmValid = false) : readCommand s = .error (.noValue .command) := by
  simp [readCommand, hv]

theorem readMessage_of_invalid {s : State} (hv : s.msgValid = false) : readMessage s = .error (.noValue .message) := by
  simp [readMessage, hv]

/-- Settles O50: each reader looks at its flag first. -/
theorem readingNoValueIsAFault : Obligations.ReadingNoValueIsAFault :=
  fun _ => ⟨fun hv => ⟨readSlot_of_invalid hv, readRepeat_of_invalid hv⟩, readCommand_of_invalid,
    readMessage_of_invalid⟩

theorem readRepeat_valid {s : State} {r : BitVec 6} (hv : s.trainValid = true) (hr : s.repeatCount = some r) :
    readRepeat s = .ok r := by
  simp [readRepeat, hv, hr]

theorem readCommand_valid {s : State} {c : CommandModel} (hv : s.cmValid = true)
    (hcm : s.cm = CommandRegister.holding c) : readCommand s = .ok c := by
  simp [readCommand, hv, hcm]

theorem readMessage_valid {s : State} {m : Message} (hv : s.msgValid = true) (hm : s.msg = some m) :
    readMessage s = .ok m := by
  simp [readMessage, hv, hm]

/-- A duration is a positive coefficient times a positive base. -/
theorem encodedTrain_slot_pos {t : Train} {r : BitVec 6} (h : encodedTrain t r) {i : Nat} (hi : i < 132) :
    0 < (t[i]).toNat := by
  obtain ⟨c, sel, -, -, hslot⟩ := h
  have hslot' : (t[i]).toNat = (closedCoef c i).value * Config.base sel := hslot ⟨i, hi⟩
  obtain ⟨hvalue, -⟩ := value_range (closedCoef c i)
  rw [hslot']
  exact Nat.mul_pos hvalue (base_pos sel)

theorem encodedTrain_repeat {t : Train} {r : BitVec 6} (h : encodedTrain t r) : r = 40 ∨ r = 10 := by
  obtain ⟨c, -, -, rfl, -⟩ := h
  cases c.learn
  · exact .inr rfl
  · exact .inl rfl

/-- Settles O51: a settled state holds an encoded train and a command's record wherever their flags are 1. -/
theorem validRegistersCanBeRead : Obligations.ValidRegistersCanBeRead := by
  refine fun s hs => ⟨fun hv => ?train, fun hv => ?command⟩
  case train =>
    obtain ⟨t, r, ht, hr, hencoded⟩ := hs.train_held hv
    refine ⟨fun i hi => ⟨t[i], readSlot_valid hv ht hi, encodedTrain_slot_pos hencoded hi⟩, ?_⟩
    rw [readRepeat_valid hv hr]
    rcases encodedTrain_repeat hencoded with rfl | rfl
    · exact .inl rfl
    · exact .inr rfl
  case command =>
    obtain ⟨c, hcm, hmsg⟩ := hs.command_held hv
    exact ⟨c, readCommand_valid hv hcm, readMessage_valid (hs.message_flag.trans hv) hmsg⟩

/-! ### The reading of a train -/

/-- One read of a valid train, and then the others. -/
theorem readSlots_succ {st : Station} {train : Train} (hv : st.block.trainValid = true)
    (ht : st.block.train = some train) {i : Nat} (hreading : st.reading.getD 0 = i) (hi : i < 132) (n : Nat) :
    readSlots (n + 1) st = readSlots n { st with reading := nextSlot i, sent := st.sent ++ [train[i]] } := by
  simp only [readSlots, stationStep, hreading, readSlot_valid hv ht hi]

theorem drop_toList_of_lt (train : Train) {i : Nat} (hi : i < 132) :
    train.toList.drop i = train[i] :: train.toList.drop (i + 1) := by
  rw [List.drop_eq_getElem_cons (by simpa using hi), Vector.getElem_toList]

/-- The reads from slot `i` to the last send the rest of the train and end the reading. -/
theorem readSlots_rest {train : Train} (n : Nat) : ∀ {st : Station} {i : Nat}, st.block.trainValid = true →
    st.block.train = some train → st.reading.getD 0 = i → i + (n + 1) = 132 →
    readSlots (n + 1) st = .next { st with reading := none, sent := st.sent ++ train.toList.drop i } := by
  induction n with
  | zero =>
    intro st i hv ht hreading hlast
    have hi : i < 132 := by omega
    have hnext : nextSlot i = none := if_neg (by omega)
    have hend : train.toList.drop (i + 1) = [] := List.drop_eq_nil_of_le (by simp; omega)
    rw [readSlots_succ hv ht hreading hi, hnext, drop_toList_of_lt train hi, hend]
    rfl
  | succ n ih =>
    intro st i hv ht hreading hlast
    have hi : i < 132 := by omega
    have hnext : nextSlot i = some (i + 1) := if_pos (by omega)
    rw [readSlots_succ hv ht hreading hi, hnext, drop_toList_of_lt train hi,
      ih (st := { st with reading := some (i + 1), sent := st.sent ++ [train[i]] }) (i := i + 1) hv ht rfl
        (by omega)]
    simp only [List.append_assoc, List.singleton_append]

/-- Settles O59: the reading begins at slot 0. -/
theorem transmitterReadsTheWholeTrainInOrder : Obligations.TransmitterReadsTheWholeTrainInOrder := by
  intro st train hv ht hidle
  have hstart : st.reading.getD 0 = 0 := by rw [hidle]; rfl
  rw [readSlots_rest 131 hv ht hstart rfl, List.drop_zero, ← hidle]

end Sys2Proof.Machine
end

section
/-! Reset, and words and states written out (spec/10_state.md sections 4 and 8, spec/30_encoding.md sections 3 and 6). -/

namespace Sys2Proof.Machine

/-- Settles O1: the state after reset is written out, and a reset of a station puts its block there. -/
theorem resetHoldsNoValue : Obligations.ResetHoldsNoValue :=
  ⟨rfl, rfl, rfl, rfl, rfl, rfl, rfl, rfl, rfl, rfl, fun _ => rfl⟩

/-- Settles O8, by decoding the five words. -/
theorem writtenWordsDecode : Obligations.WrittenWordsDecode := by
  unfold Obligations.WrittenWordsDecode
  decide

/-- Settles O9: a SYM word has its code in the low eight bits, whatever its group is. -/
theorem symbolWordsCarryTheirClassCodes : Obligations.SymbolWordsCarryTheirClassCodes := by
  refine ⟨⟨rfl, rfl, rfl, rfl⟩, rfl, rfl, rfl, rfl, fun g => ?low, fun g => ?high, by decide, by decide⟩
  case low => exact (packSymbol_fields g 0b00000001).2.2
  case high => exact (packSymbol_fields g 0b00010000).2.2

/-- Settles O27: a pass ends with the index of the next, whatever it has read in `CM`. -/
theorem passIndexCountsThePasses : Obligations.PassIndexCountsThePasses := by
  intro s
  obtain ⟨id, n, -, hid⟩ := execPId_next s
  obtain ⟨all, m, -, hall⟩ := execPAll_next s
  obtain ⟨d, l, -, hstate⟩ := execPState_next s
  obtain ⟨all', unit, j, -, -, hunit⟩ := execPUnit_next s
  exact ⟨⟨_, exec_pStart s, rfl⟩, ⟨_, exec_pClear s, rfl⟩, ⟨_, hid, rfl⟩, ⟨_, hall, rfl⟩, ⟨_, hstate, rfl⟩,
    ⟨_, hunit, rfl⟩, ⟨_, exec_pFooter s, rfl⟩⟩

theorem reset_settled : State.reset.Settled where
  command_absent := fun _ => rfl
  command_held := nofun
  message_flag := rfl
  message_absent := fun _ => rfl
  train_absent := fun _ => ⟨rfl, rfl⟩
  train_held := nofun
  failure_leaves_nothing := nofun
  err_is_code := by decide
  fail_is_err := by decide
  between_passes := rfl

theorem reset_sound : State.reset.Sound where
  command_held := nofun
  train_held := rfl
  message_held := nofun
  err_is_code := by decide
  fail_is_err := by decide
  ph_is_index := by decide
  message_formed := nofun
  train_formed := nofun

/-- Settles O58: no flag is set and no register holds a value. -/
theorem resetIsSoundAndSettled : Obligations.ResetIsSoundAndSettled := ⟨reset_sound, reset_settled, rfl⟩

end Sys2Proof.Machine
end
